-- ==== Sys2Proof/Word.lean ====
section
/-! DEFINITION. The value types of the block (00_scope.md R5, R7): bytes, bus addresses, and the names
the spec leaves opaque (endpoints, provider, listener and callback identifiers). -/

namespace Sys2Proof

/-- A byte: an unsigned 8-bit value (R7). -/
abbrev Byte := BitVec 8

/-- A bus address: ADDR_BITS = 16 bits (R5). -/
abbrev Addr := BitVec 16

/-- A network endpoint: an opaque type with decidable equality (R5, D21).
DESIGN CHOICE (assumption 3, safe): named by a natural number. -/
abbrev Endpoint := Nat

/-- Identifies a provider function (R19). DESIGN CHOICE (assumption 3, safe): a natural number. -/
abbrev ProviderId := Nat

/-- Identifies a listener (R20). DESIGN CHOICE (assumption 3, safe): a natural number. -/
abbrev ListenerId := Nat

/-- Identifies a callback the host binds (R177, R178). DESIGN CHOICE (assumption 3, safe): a natural
number. -/
abbrev CallbackId := Nat

end Sys2Proof
end

