-- ==== Sys2Proof/Config.lean ====
section
/-! DEFINITION. The configuration record of 00_scope.md R5 and the free values the spec leaves to the
environment. The record's default values and its constraints (R6) stand in Machine/Params.lean. -/

namespace Sys2Proof

/-- The parameters of R5. "The configuration record is not state: no operation changes it" (R24): State
carries it as a field that no step writes (assumption 1), so every statement holds for every
configuration. -/
structure Config where
  /-- `M`: start marker of a master frame. -/
  masterStart : Byte
  /-- `S`: start marker of a slave frame. -/
  slaveStart : Byte
  /-- `ACK`: acknowledge sentinel. -/
  ack : Byte
  /-- `NAK`: negative-acknowledge sentinel. -/
  nak : Byte
  /-- `SUBST`: checksum substitute for a checksum equal to `M`. -/
  subst : Byte
  /-- `BUF_CAP`: capacity of the transcript buffer in bytes. -/
  bufCap : Nat
  /-- `QUEUE_DEPTH`: most entries in one request FIFO. -/
  queueDepth : Nat
  /-- `SETTLE`: the turnaround settle interval, in milliseconds (open parameter). -/
  settle : Nat
  /-- `TARGET_TIMEOUT`: idle time after which a non-static target expires (open parameter). -/
  targetTimeout : Nat
  /-- `STATIC_TARGETS`: the endpoints that never expire, a finite set (open parameter); order and
  repeats mean nothing. -/
  staticTargets : List Endpoint
  /-- `SLAVE_CSUM_INCLUDES_START`: whether a slave frame's checksum covers its start byte (D33). -/
  slaveCsumIncludesStart : Bool
deriving DecidableEq, Repr

/-- FREE VALUE (assumption 8): the provider oracle of R23 and R148: its answer to call number `n`, for
provider `p`, address `a` and command `c`. Nothing is known of it: it may answer differently at each
call, and it may break its contract (R148). -/
opaque Config.freeProvider (p : ProviderId) (a : Addr) (c : Byte) (n : Nat) : Option (List Byte)

/-- FREE VALUE (assumption 9): choice number `n` of the order in which one flush is broadcast, "an order
the source does not fix" (R156). -/
opaque Config.freePick (n : Nat) : Nat

end Sys2Proof
end

