-- ==== Sys2Proof/Machine/Params.lean ====
section
/-! DEFINITION. The fixed and default numbers of 00_scope.md R5 and the constraints of R6. -/

namespace Sys2Proof

/-- `MAX_DATA`: largest declared length of a valid master frame (R5). -/
def maxData : Nat := 122

/-- `MAX_FRAME`: largest master frame in bytes, 6 + MAX_DATA (R5). -/
def maxFrame : Nat := 6 + maxData

/-- `MAX_RESP`: largest response payload (R5, D12). -/
def maxResp : Nat := maxFrame

/-- The constraints of R6 (D2): markers and sentinels pairwise distinct, `M ≠ 0`, `SUBST ≠ M`,
`BUF_CAP ≥ 257`, `QUEUE_DEPTH ≥ 1`. -/
def Config.legal (c : Config) : Bool :=
  c.masterStart != c.slaveStart && c.masterStart != c.ack && c.masterStart != c.nak &&
  c.slaveStart != c.ack && c.slaveStart != c.nak && c.ack != c.nak &&
  c.masterStart != 0 && c.subst != c.masterStart &&
  decide (2 * maxFrame + 1 ≤ c.bufCap) && decide (1 ≤ c.queueDepth)

/-- The configuration `State.reset` carries. The five wire constants are the spec's defaults, "from general
knowledge, not in source" (R5, D1): PRESUMED. BUF_CAP, QUEUE_DEPTH and SLAVE_CSUM_INCLUDES_START are the
defaults R5 gives. SETTLE, TARGET_TIMEOUT and STATIC_TARGETS are open: DESIGN CHOICE (assumption 2, unsafe
for a claim about these numbers; every statement of this package quantifies over the configuration). -/
def Config.default : Config where
  masterStart := 0x5C
  slaveStart := 0xC0
  ack := 0x06
  nak := 0x15
  subst := 0xC5
  bufCap := 257
  queueDepth := 3
  settle := 1
  targetTimeout := 3000
  staticTargets := []
  slaveCsumIncludesStart := false

end Sys2Proof
end

