-- ==== Sys2Proof/Machine/Codec.lean ====
section
/-! DEFINITION. The checksum codec (40_checksum_codec.md): pure functions of byte lists, and the byte order
of the address (20_memory.md R41). The operations CSUM to MKSLAVE are in Machine/CodecOps.lean. -/

namespace Sys2Proof.Machine

/-- `x[i..j)` (R7). -/
def slice (x : List Byte) (i j : Nat) : List Byte := (x.take j).drop i

/-- Byte `i` of a list, for an index the caller has checked. -/
def byteAt (x : List Byte) (i : Nat) : Byte := x.getD i 0

/-- Bits 15:8 of an address (R41, R61). -/
def addrHi (a : Addr) : Byte := a.extractLsb' 8 8

/-- Bits 7:0 of an address (R41, R61). -/
def addrLo (a : Addr) : Byte := a.extractLsb' 0 8

/-- `(zext_16(hi) << 8) | zext_16(lo)` (R64). -/
def addrOf (hi lo : Byte) : Addr := (hi.setWidth 16 <<< 8) ||| lo.setWidth 16

/-- The exclusive-or of all bytes, before substitution (R80, R81). -/
def xorFold (bs : List Byte) : Byte := bs.foldl (fun r x => r ^^^ x) 0

/-- `Csum(bytes)` (R80). -/
def csum (c : Config) (bs : List Byte) : Byte :=
  if xorFold bs = c.masterStart then c.subst else xorFold bs

/-- `CsumOk(bytes, k)` (R81). -/
def csumOk (c : Config) (bs : List Byte) (k : Byte) : Bool :=
  k == csum c bs || (xorFold bs == c.masterStart && k == c.subst)

/-- `MasterFrameValid(f)` (R82). -/
def masterFrameValid (c : Config) (f : List Byte) : Bool :=
  let n := (byteAt f 4).toNat
  decide (6 ≤ f.length) && byteAt f 0 == c.masterStart && byteAt f 1 != c.masterStart &&
  decide (n ≤ maxData) && decide (f.length = 6 + n) &&
  csumOk c (slice f 1 (5 + n)) (byteAt f (5 + n))

/-- The bytes a slave frame's checksum covers, from its start byte and its command to last data byte (R62,
R83). -/
def slaveCover (c : Config) (start : Byte) (body : List Byte) : List Byte :=
  if c.slaveCsumIncludesStart then start :: body else body

/-- `SlaveFrameValid(f)` (R83). -/
def slaveFrameValid (c : Config) (f : List Byte) : Bool :=
  let n := (byteAt f 2).toNat
  decide (4 ≤ f.length) && byteAt f 0 == c.slaveStart && decide (f.length = n + 4) &&
  csumOk c (slaveCover c (byteAt f 0) (slice f 1 (3 + n))) (byteAt f (3 + n))

/-- The bytes a master frame's checksum covers: address high through last data byte (R65). -/
def masterBody (a : Addr) (cmd : Byte) (data : List Byte) : List Byte :=
  addrHi a :: addrLo a :: cmd :: BitVec.ofNat 8 data.length :: data

/-- `MkMaster(address, cmd, data)` (R84). -/
def mkMaster (c : Config) (a : Addr) (cmd : Byte) (data : List Byte) : List Byte :=
  c.masterStart :: masterBody a cmd data ++ [csum c (masterBody a cmd data)]

/-- The command, length and data of a slave frame (R62). -/
def slaveBody (cmd : Byte) (data : List Byte) : List Byte :=
  cmd :: BitVec.ofNat 8 data.length :: data

/-- `MkSlave(cmd, data)` (R85). -/
def mkSlave (c : Config) (cmd : Byte) (data : List Byte) : List Byte :=
  c.slaveStart :: slaveBody cmd data ++ [csum c (slaveCover c c.slaveStart (slaveBody cmd data))]

/-- `Dedup(p)` (R155): pairs of markers, left to right, become one marker. -/
def dedupBytes (c : Config) : List Byte → List Byte
  | [] => []
  | [x] => [x]
  | x :: y :: rest =>
    if x = c.masterStart ∧ y = c.masterStart then c.masterStart :: dedupBytes c rest
    else x :: dedupBytes c (y :: rest)

end Sys2Proof.Machine
end

