-- ==== Sys2Proof/Machine/Table.lean ====
section
/-! DEFINITION. The one canonical form of a finite map: a list of (key, value) pairs, keys strictly rising
by a code number. The transcript buffer and the four tables of the multiplexer (20_memory.md R40) are kept
so, so that equal maps are equal data. -/

namespace Sys2Proof.Machine

variable {κ α : Type}

/-- The value at `k`, if `k` is in the map. -/
def tableGet [DecidableEq κ] : List (κ × α) → κ → Option α
  | [], _ => none
  | (k', v) :: t, k => if k = k' then some v else tableGet t k

/-- `map[k] <- v`. -/
def tableSet [DecidableEq κ] (code : κ → Nat) : List (κ × α) → κ → α → List (κ × α)
  | [], k, v => [(k, v)]
  | (k', v') :: t, k, v =>
    if k = k' then (k, v) :: t
    else if code k < code k' then (k, v) :: (k', v') :: t
    else (k', v') :: tableSet code t k v

/-- The map without `k`. -/
def tableErase [DecidableEq κ] (t : List (κ × α)) (k : κ) : List (κ × α) :=
  t.filter fun x => x.1 ≠ k

/-- `dom(map)`, in the order of the codes. -/
def tableKeys (t : List (κ × α)) : List κ := t.map Prod.fst

/-- The canonical form: codes strictly rising. -/
abbrev TableWf (code : κ → Nat) (t : List (κ × α)) : Prop :=
  t.Pairwise fun x y => code x.1 < code y.1

/-- `A ∪ {k}`, for a set kept as a strictly rising list. -/
def setInsert [DecidableEq κ] (code : κ → Nat) : List κ → κ → List κ
  | [], k => [k]
  | k' :: t, k =>
    if k = k' then k' :: t
    else if code k < code k' then k :: k' :: t
    else k' :: setInsert code t k

/-- `A \ {k}`. -/
def setErase [DecidableEq κ] (t : List κ) (k : κ) : List κ := t.filter fun x => x ≠ k

/-- The canonical form of a set: codes strictly rising. -/
abbrev SetWf (code : κ → Nat) (t : List κ) : Prop := t.Pairwise fun x y => code x < code y

end Sys2Proof.Machine
end

