-- ==== Sys2Proof/Syntax.lean ====
section
/-! DEFINITION. The operations of the block: one constructor of `Instr` per row of spec/opcode_table.json
(30_encoding.md R66, R72, R73), and the raw inputs from which they are decoded. -/

namespace Sys2Proof

/-- The parser's five states (R11). -/
inductive ParserState where
  | waitStart
  | waitStartSlave
  | waitData
  | waitDataSlave
  | waitAck
deriving DecidableEq, Repr

/-- An operation of the block. `b` is always the byte in hand; where the table fixes the byte (WS.DBL: `M`;
WSS.START: `S`; ACKH.ACK, ACKH.NAK, ACKH.MARK) it is no operand. -/
inductive Instr where
  -- format RX: one transition of the parser, selected by (`st`, `b`) and the registers (R66)
  | ovf (st : ParserState) (b : Byte)
  | wsDbl
  | wsStart (b : Byte)
  | wsSlide (b : Byte)
  | wdAppend (b : Byte)
  | wdBadlen (b : Byte)
  | wdBadsum (b : Byte)
  | wdValid (b : Byte)
  | wdPollAns (b : Byte)
  | wdPollAck (b : Byte)
  | wdDataAck (b : Byte)
  | wdPollObs (b : Byte)
  | wdDataObs (b : Byte)
  | wssStart
  | wssOther (b : Byte)
  | wdsAppend (b : Byte)
  | wdsDone (b : Byte)
  | wa (b : Byte)
  | ackhAck
  | ackhNak
  | ackhMark
  | ackhOther (b : Byte)
  -- format WIRE: the wire formats of R61 to R63, arriving on the bus (assumption 13)
  | mframe (a : Addr) (c : Byte) (data : List Byte)
  | sframe (c : Byte) (data : List Byte)
  | ackbyte
  | nakbyte
  -- format HOST: the fifteen commands of R72
  | setack (a : Addr) (en : Bool)
  | enq (a : Addr) (t : Byte) (p : List Byte)
  | setprov (a : Addr) (t : Byte) (pid : ProviderId)
  | setconst (a : Addr) (t : Byte) (p : List Byte)
  | addlsn (a : Addr) (c : Byte) (lid : ListenerId)
  | refresh (e : Endpoint) (now : Nat)
  | sweep (now : Nat)
  | connect
  | disconnect
  | connected
  | loop
  | inprog
  | consume (b : Byte)
  | onframe (cb : CallbackId)
  | ontoken (cb : CallbackId)
  -- format INTERNAL: called by other rules, with no encoding (R73)
  | csum (bs : List Byte)
  | csumok (bs : List Byte) (k : Byte)
  | mfvalid (f : List Byte)
  | sfvalid (f : List Byte)
  | mkmaster (a : Addr) (c : Byte) (data : List Byte)
  | mkslave (c : Byte) (data : List Byte)
  | dispatch
  | ackh (b : Byte)
  | complete (t : Byte)
  | sendbytes (p : List Byte)
  | sendack
  | sendnak
  | tokenpoll (a : Addr) (c : Byte)
  | fanout (tr : List Byte)
  | lsndispatch (tr : List Byte)
  | dedup (p : List Byte)
  | broadcast (tr : List Byte)
deriving DecidableEq, Repr

/-- A command as it stands at the host port: the 8-bit code of R72, one number per scalar operand in the
order R72 lists them, and the payload bytes. DESIGN CHOICE (assumption 15, safe): R72 gives codes and
operands and no layout. -/
structure Call where
  code : Byte
  args : List Nat
  data : List Byte
deriving DecidableEq, Repr

/-- One thing the environment or the host does (R4, R47). -/
inductive Input where
  /-- A received byte handed straight to the parser: the `rx` line of R74, the primitive step of D24. -/
  | rx (b : Byte)
  /-- Bytes arrive on the bus and wait in the receive stream (R22). -/
  | wire (bs : List Byte)
  /-- The host issues a command (R170). -/
  | call (c : Call)
deriving DecidableEq, Repr

/-- Why raw input stands for no operation. -/
inductive Reject where
  /-- An RX word has bits above bit 10 (R66: an 11-bit word). -/
  | notElevenBits
  /-- An RX word names parser state 5, 6 or 7 (R11: unreachable). -/
  | noSuchState
  /-- A command code outside 0x01 to 0x0F: "the command set is closed" (R170). -/
  | noSuchCommand (code : Byte)
  /-- A command with too few, too many or unexpected operands (R72). -/
  | operandShape
  /-- An operand that does not fit its width in R72 (an address above 16 bits, and so on). -/
  | operandRange
  /-- Bytes that are none of the three wire formats: "there is no other format" (R60). -/
  | noWireFormat
  /-- An opcode-table word of a width no row has. -/
  | noSuchWidth
deriving DecidableEq, Repr

end Sys2Proof
end

