-- ==== Sys2Proof/Machine/State.lean ====
section
/-! DEFINITION. The state of the block (10_state.md), as plain data: the parser session registers (R10 to
R15), the stored flag and port bindings (R17, R177, R178), the four tables (R18 to R21), the receive stream
(R22), the output trace (R30), the value returned to the caller (R30), the configuration record (R24), and
the model's own schedule and free-value counters. -/

namespace Sys2Proof.Machine

/-- A key of `req` or `lsn`: a 16-bit address and an 8-bit token or command (R19, R20). -/
structure Key where
  addr : Addr
  tok : Byte
deriving DecidableEq, Repr

/-- The fallback of a request entry (R19). -/
inductive Fallback where
  | none
  | const (p : List Byte)
  | provider (p : ProviderId)
deriving DecidableEq, Repr

/-- A request entry: a FIFO of payloads, oldest first, and a fallback (R19). -/
structure ReqEntry where
  queue : List (List Byte)
  fallback : Fallback
deriving DecidableEq, Repr

/-- The four error classes (60_exceptions.md R191). -/
inductive ErrorClass where
  | malformedFrame
  | checksumMismatch
  | bufferOverflow
  | unexpectedAckByte
deriving DecidableEq, Repr

/-- The events of R30, the only outputs of the block. -/
inductive Event where
  /-- `setDirectionAsserted(x)`. -/
  | dir (x : Bool)
  /-- A delay of `n` milliseconds. -/
  | delay (n : Nat)
  /-- `writeBytes(bs)`. -/
  | write (bs : List Byte)
  /-- `flush()`. -/
  | flush
  /-- The transcript of a finished exchange on the frame-received port. -/
  | frameReceived (tr : List Byte)
  /-- Listener `lid`, registered for (`a`, `c`), is called with payload `p`. -/
  | listener (lid : ListenerId) (a : Addr) (c : Byte) (p : List Byte)
  /-- Transcript `tr` is sent to endpoint `e`. -/
  | broadcast (e : Endpoint) (tr : List Byte)
  /-- An error of R191 on the diagnostic port. -/
  | log (e : ErrorClass)
deriving DecidableEq, Repr

/-- What the last host command or codec call returned to its caller ("a value to the host ... no event", R30;
"the host gets a refusal, no event", R196). -/
inductive Answer where
  /-- Nothing has been returned yet. -/
  | nothing
  /-- A command that returns no value ran to completion. -/
  | done
  /-- ENQ or SETCONST refused its payload, state unchanged (R142, R145). -/
  | refused
  | bit (v : Bool)
  | byte (v : Byte)
  | bytes (v : List Byte)
  /-- An optional byte list (R146). -/
  | optBytes (v : Option (List Byte))
deriving DecidableEq, Repr

/-- How the machine can stop with a fault. -/
inductive Fault where
  /-- A write of `buf` at an index ≥ BUF_CAP, which R45 says does not happen. Raised by the append of ACKH,
  of WD.POLL.ACK and WD.DATA.ACK, and by the copy of WD.POLL.ANS, in states that no run reaches. Safe: the
  model stops where the spec says no rule goes. -/
  | bufRange
deriving DecidableEq, Repr

/-- Why an operation has no meaning. -/
inductive Refusal where
  /-- Raised by exec for an instruction that has no meaning yet. Safe. -/
  | notModelled (mnemonic : String)
  /-- Raised by an RX row presented in a state or with a byte for which the decode table R66 does not select
  it: the block then runs another row. Safe. -/
  | notSelected
  /-- Raised where a provider answers more than MAX_RESP bytes: "the model gives such a step no meaning
  (refuse)" (R148). Safe. -/
  | providerOutOfContract
  /-- Raised by step under a configuration that breaks R6: "refused by the model (no meaning)". Safe. -/
  | illegalConfig
  /-- Raised by step on a host call that is none of the fifteen commands of R72. Safe. -/
  | undecodable (r : Reject)
  /-- Raised by MKMASTER, MKSLAVE, SENDBYTES, MFRAME and SFRAME on an operand outside the domain their rule
  gives (R84, R85, R130, R61, R62). Safe. -/
  | operandOutsideDomain
deriving DecidableEq, Repr

/-- The state of the block. -/
structure State where
  /-- The configuration record (R5, R24): no step writes it. -/
  cfg : Config
  /-- `st` (R11). -/
  st : ParserState
  /-- `buf` (R12): the bytes of the transcript buffer that are not 0, by rising index. -/
  mem : List Host.Cell
  /-- `cur` (R13). -/
  cur : Nat
  /-- `sorg` (R14). -/
  sorg : Nat
  /-- `prev` (R15). -/
  prev : Byte
  /-- `connected` (R17). -/
  connected : Bool
  /-- Whether the frame-received port is bound to FanOut (R118, R177). -/
  frameBound : Bool
  /-- Whether the token-poll port is bound to TokenPoll (R105, R178). -/
  tokenBound : Bool
  /-- `ackset` (R18). -/
  ackset : List Addr
  /-- `req` (R19); an entry with an empty queue and no fallback is not listed. -/
  req : List (Key × ReqEntry)
  /-- `lsn` (R20). -/
  lsn : List (Key × ListenerId)
  /-- `tgt` (R21). -/
  tgt : List (Endpoint × Nat)
  /-- The bytes that have arrived and wait in the receive stream, oldest first (R22). -/
  rxq : List Byte
  /-- The output trace, oldest event first (R30). -/
  trace : List Event
  /-- What the last command or codec call returned (R30). -/
  answer : Answer
  /-- The model's own: what the bus and the host do next, in order (assumption 6). -/
  inputs : List Input
  /-- The model's own: the number of provider calls made, index of the free answer (assumption 8). -/
  provCalls : Nat
  /-- The model's own: the number of broadcast-order choices made, index of the free choice
  (assumption 9). -/
  picks : Nat
deriving DecidableEq, Repr

/-- The state after power-on under configuration `c` (R31, R220). The spec leaves `buf` and the last-seen
values of the static targets unspecified: DESIGN CHOICE (assumptions 4 and 5, unsafe): nothing listed, and
0. Both ports are bound (R177, R178). No byte has arrived and nothing is scheduled (assumption 6). -/
def State.resetWith (c : Config) : State where
  cfg := c
  st := .waitStart
  mem := []
  cur := 0
  sorg := 0
  prev := 0
  connected := false
  frameBound := true
  tokenBound := true
  ackset := []
  req := []
  lsn := []
  tgt := c.staticTargets.foldl (fun t e => tableSet id t e 0) []
  rxq := []
  trace := []
  answer := .nothing
  inputs := []
  provCalls := 0
  picks := 0

/-- The state after power-on under the default configuration. -/
def State.reset : State := State.resetWith Config.default

end Sys2Proof.Machine
end

