-- ==== Sys2Proof/Machine/Ops.lean ====
section
/-! DEFINITION. The named operations over memory, tables, trace and registers, and the operations shared by
several rules: the half-duplex send (R130), the token poll (R146), the fan-out (R152), the flush (R118), and
the one error entry of the block (R199). There is no return from an error to write beside it (R200). -/

namespace Sys2Proof.Machine

/-- A step's outcome. -/
abbrev Result := Host.Outcome State Fault Refusal

/-- Runs `f` on the next state of `o`; a stop stays a stop. -/
def andThen (o : Result) (f : State → Result) : Result :=
  match o with
  | .next s => f s
  | .fault r => .fault r
  | .refused r => .refused r

/-! ### The transcript buffer (R40) -/

/-- The byte at index `i`. DESIGN CHOICE (assumption 4, unsafe; no rule reads such a byte, R12): an index
that nothing has written reads 0. -/
def Memory.read (m : List Host.Cell) (i : Nat) : Byte := (tableGet m i).getD 0

/-- The memory with byte `b` at index `i`, in canonical form: a byte that reads as an unlisted one is not
listed. -/
def Memory.write (m : List Host.Cell) (i : Nat) (b : Byte) : List Host.Cell :=
  if b = 0 then tableErase m i else tableSet id m i b

/-- The canonical form of memory: indexes strictly rising, no listed byte equal to what an unlisted one
reads as. -/
abbrev Memory.wf (m : List Host.Cell) : Prop := TableWf id m ∧ ∀ c ∈ m, c.2 ≠ 0

/-- `buf[i]`. -/
def State.readBuf (s : State) (i : Nat) : Byte := Memory.read s.mem i

/-- `buf[i] <- b`. -/
def State.writeBuf (s : State) (i : Nat) (b : Byte) : State := { s with mem := Memory.write s.mem i b }

/-- `buf[i..j)`, read byte by byte (R40). -/
def State.bufSlice (s : State) (i j : Nat) : List Byte :=
  (List.range (j - i)).map fun k => s.readBuf (i + k)

/-- The transcript `T = buf[0..cur)` (R7). -/
def State.transcript (s : State) : List Byte := s.bufSlice 0 s.cur

/-- `buf[cur] <- b ; cur <- cur + 1`, where the caller has checked that there is room. -/
def State.append (s : State) (b : Byte) : State :=
  { s with mem := Memory.write s.mem s.cur b, cur := s.cur + 1 }

/-- The append with its range check: no index ≥ BUF_CAP is written (R45). -/
def pushByte (b : Byte) (s : State) : Result :=
  if s.cfg.bufCap ≤ s.cur then .fault .bufRange else .next (s.append b)

/-- The appends of a byte list at ascending indexes (R40). -/
def pushBytes : List Byte → State → Result
  | [], s => .next s
  | b :: bs, s => andThen (pushByte b s) (pushBytes bs)

/-! ### Trace and answer (R30) -/

/-- `emit E`, for a list of events in order. -/
def State.emit (s : State) (es : List Event) : State := { s with trace := s.trace ++ es }

/-- Returns a value to the caller. -/
def State.reply (s : State) (v : Answer) : State := { s with answer := v }

/-! ### Keys and table access -/

/-- The order number of a (address, token) key. -/
def keyCode (k : Key) : Nat := k.addr.toNat * 256 + k.tok.toNat

/-- The order number of an address. -/
def addrCode (a : Addr) : Nat := a.toNat

/-- The entry an absent key stands for (R19). -/
def ReqEntry.empty : ReqEntry := { queue := [], fallback := .none }

/-- `req[k]`; "a key not in dom(req) is the same as an entry with empty queue and fallback = None" (R19). -/
def State.entry (s : State) (k : Key) : ReqEntry := (tableGet s.req k).getD ReqEntry.empty

/-- `req[k] <- e`; an empty entry is not listed (assumption 27). -/
def State.setEntry (s : State) (k : Key) (e : ReqEntry) : State :=
  { s with req := if e = ReqEntry.empty then tableErase s.req k else tableSet keyCode s.req k e }

/-- `lsn[k] <- lid`. -/
def State.setListener (s : State) (k : Key) (lid : ListenerId) : State :=
  { s with lsn := tableSet keyCode s.lsn k lid }

/-- `tgt[e] <- now`. -/
def State.setTarget (s : State) (e : Endpoint) (now : Nat) : State :=
  { s with tgt := tableSet id s.tgt e now }

/-! ### The half-duplex send (43_transmit.md) -/

/-- The six events of `SendBytes(p)`, in order (R130). -/
def sendEvents (c : Config) (p : List Byte) : List Event :=
  [.dir true, .delay c.settle, .write p, .flush, .delay c.settle, .dir false]

/-- `SendBytes(p)` (R130). -/
def sendBytes (p : List Byte) (s : State) : State := s.emit (sendEvents s.cfg p)

/-! ### The token poll (R146 to R148) -/

/-- What the token-poll port answers. -/
inductive PollAnswer where
  | supplied (p : List Byte)
  | nothing
  /-- The provider answered more than MAX_RESP bytes (R148). -/
  | outOfContract
deriving DecidableEq, Repr

/-- A provider's raw answer under the contract of R23 and R148: an empty list counts as none, more than
MAX_RESP bytes is outside it. -/
def judgeProvider : Option (List Byte) → PollAnswer
  | none => .nothing
  | some p => if p = [] then .nothing else if maxResp < p.length then .outOfContract else .supplied p

/-- What `TokenPoll(a, c)` returns in `s` (R146): the front of the queue, else the fallback; none when the
port is not bound (R105). -/
def pollAnswer (s : State) (a : Addr) (c : Byte) : PollAnswer :=
  if s.tokenBound then
    match (s.entry ⟨a, c⟩).queue with
    | p :: _ => .supplied p
    | [] =>
      match (s.entry ⟨a, c⟩).fallback with
      | .none => .nothing
      | .const p => .supplied p
      | .provider pid => judgeProvider (Config.freeProvider pid a c s.provCalls)
  else .nothing

/-- The state `TokenPoll(a, c)` leaves (R146, R147): a served queue entry is gone; a provider call is
counted. -/
def afterPoll (s : State) (a : Addr) (c : Byte) : State :=
  if s.tokenBound then
    match (s.entry ⟨a, c⟩).queue with
    | _ :: q => s.setEntry ⟨a, c⟩ { s.entry ⟨a, c⟩ with queue := q }
    | [] =>
      match (s.entry ⟨a, c⟩).fallback with
      | .provider _ => { s with provCalls := s.provCalls + 1 }
      | _ => s
  else s

/-! ### The fan-out (R152 to R156) -/

/-- The declared end of the master frame a transcript begins with: `6 + T[4]`. -/
def frameEnd (tr : List Byte) : Nat := 6 + (byteAt tr 4).toNat

/-- The `Listener` event of a transcript, if any (R153, R154). -/
def listenerEvents (s : State) (tr : List Byte) : List Event :=
  if 6 ≤ tr.length ∧ (byteAt tr 4).toNat ≤ maxData ∧ frameEnd tr ≤ tr.length ∧
      masterFrameValid s.cfg (slice tr 0 (frameEnd tr)) = true then
    let a := addrOf (byteAt tr 1) (byteAt tr 2)
    let c := byteAt tr 3
    match tableGet s.lsn ⟨a, c⟩ with
    | some lid => [.listener lid a c (dedupBytes s.cfg (slice tr 5 (frameEnd tr - 1)))]
    | none => []
  else []

/-- `ListenerDispatch(T)` (R153). -/
def listenerDispatch (tr : List Byte) (s : State) : State := s.emit (listenerEvents s tr)

/-- Which of `len` remaining endpoints comes next: free where there is a choice (assumption 9). -/
def pickIndex (n len : Nat) : Nat := if len ≤ 1 then 0 else Config.freePick n % len

/-- The endpoints in some order, drawn by the free choices `n`, `n + 1`, ...; the first number is how many
endpoints there are. -/
def drawOrder : Nat → Nat → List Endpoint → List Endpoint
  | 0, _, _ => []
  | k + 1, n, es =>
    match es[pickIndex n es.length]? with
    | some e => e :: drawOrder k (n + 1) (es.eraseIdx (pickIndex n es.length))
    | none => []

/-- The order in which one flush reaches the targets: any order (R156, I8). -/
def broadcastOrder (s : State) : List Endpoint :=
  drawOrder (tableKeys s.tgt).length s.picks (tableKeys s.tgt)

/-- `BroadcastAll(T)` (R156): raw, to every endpoint of `tgt`. -/
def broadcastAll (tr : List Byte) (s : State) : State :=
  { s.emit ((broadcastOrder s).map fun e => .broadcast e tr) with
    picks := s.picks + (tableKeys s.tgt).length }

/-- `FanOut(T)` (R152). -/
def fanOut (tr : List Byte) (s : State) : State := broadcastAll tr (listenerDispatch tr s)

/-! ### The flush and the error entry -/

/-- The delivery of a transcript: `FrameReceived(T)`, then the fan-out where the port is bound to it (R118,
R177). -/
def deliverTranscript (tr : List Byte) (s : State) : State :=
  if s.frameBound then fanOut tr (s.emit [.frameReceived tr]) else s.emit [.frameReceived tr]

/-- The idle session registers, the window pre-seeded with `t` (R118). -/
def State.idle (s : State) (t : Byte) : State :=
  { s with st := .waitStart, cur := 0, sorg := 0, prev := t }

/-- `Complete(t)` (R118): delivery first, then the register reset (D32). -/
def complete (t : Byte) (s : State) : State := (deliverTranscript s.transcript s).idle t

/-- Taking an error (R199): `Log(code)`, then `Complete(0)`. Nothing is saved; control goes to the WaitStart
rules. -/
def raiseError (e : ErrorClass) (s : State) : State := complete 0 (s.emit [.log e])

/-- The error's code (R191). -/
def ErrorClass.code : ErrorClass → Nat
  | .malformedFrame => 1
  | .checksumMismatch => 2
  | .bufferOverflow => 3
  | .unexpectedAckByte => 4

end Sys2Proof.Machine
end

