-- ==== Sys2Proof/Machine/Operands.lean ====
section
/-! DEFINITION. What a rule reads of the registers and the buffer: field assembly (R64, R98), the conditions of
the decode table (R66), and the dispatch choice (R99). -/

namespace Sys2Proof.Machine

/-- `a = (buf[1] << 8) | buf[2]` (R64, R98). -/
def State.frameAddr (s : State) : Addr := addrOf (s.readBuf 1) (s.readBuf 2)

/-- `c = buf[3]` (R98). -/
def State.frameCmd (s : State) : Byte := s.readBuf 3

/-- `N = buf[4]`, as a natural number (R64). -/
def State.frameLen (s : State) : Nat := (s.readBuf 4).toNat

/-- `CsumOk(buf[1..5+N), buf[5+N])` (R65, R96). -/
def State.frameSumOk (s : State) : Bool :=
  csumOk s.cfg (s.bufSlice 1 (5 + s.frameLen)) (s.readBuf (5 + s.frameLen))

/-- `st ≠ WaitStart ∧ cur ≥ BUF_CAP`: the overflow guard (R90, R121). -/
def State.overflowing (s : State) : Bool := s.st != .waitStart && decide (s.cfg.bufCap ≤ s.cur)

/-- What the byte just appended in `WaitData` makes of the frame. -/
inductive DataClass where
  | append
  | badLen
  | badSum
  | valid
deriving DecidableEq, Repr

/-- The tests of `WD(b)` after the append, in order. Its last branch is taken on `cur ≥ 6 + buf[4]`; "cur > 6 +
buf[4] cannot occur" (assumption 22). -/
def State.dataClass (s : State) : DataClass :=
  if s.cur < 5 then .append
  else if s.cur = 5 ∧ maxData < s.frameLen then .badLen
  else if s.cur < 6 + s.frameLen then .append
  else if s.frameSumOk then .valid
  else .badSum

/-- Which rule `Dispatch()` selects (R99). -/
inductive DispatchClass where
  | pollAns (p : List Byte)
  | pollAck
  | dataAck
  | pollObs
  | dataObs
  /-- The poll asked a provider that broke its contract (R148). -/
  | outOfContract
deriving DecidableEq, Repr

/-- The tests of `Dispatch()` (R99). -/
def State.dispatchClass (s : State) : DispatchClass :=
  if s.frameAddr ∈ s.ackset then
    if s.frameLen = 0 then
      match pollAnswer s s.frameAddr s.frameCmd with
      | .supplied p => if p = [] then .pollAck else .pollAns p
      | .nothing => .pollAck
      | .outOfContract => .outOfContract
    else .dataAck
  else if s.frameLen = 0 then .pollObs
  else .dataObs

/-- `rel ≥ 3 and rel ≥ buf[sorg+2] + 4`, with `rel = cur - sorg`, after the append in `WaitDataSlave` (R113). -/
def State.slaveDone (s : State) : Bool :=
  decide (3 ≤ s.cur - s.sorg) && decide ((s.readBuf (s.sorg + 2)).toNat + 4 ≤ s.cur - s.sorg)

/-- The AckHandler row of a byte (R66, R115). -/
def ackRow (c : Config) (b : Byte) : Instr :=
  if b = c.ack then .ackhAck
  else if b = c.nak then .ackhNak
  else if b = c.masterStart then .ackhMark
  else .ackhOther b

/-- The row of a valid master frame whose last byte is `b` (R66). -/
def dispatchRow (b : Byte) : DispatchClass → Instr
  | .pollAns _ => .wdPollAns b
  | .outOfContract => .wdPollAns b
  | .pollAck => .wdPollAck b
  | .dataAck => .wdDataAck b
  | .pollObs => .wdPollObs b
  | .dataObs => .wdDataObs b

/-- The decode table (R66): the row that applies to byte `b` in state `s`, tested top to bottom. The rows that
only delegate are given by the row they delegate to, but for WSS.OTHER, which R66 names itself. -/
def selectRow (s : State) (b : Byte) : Instr :=
  if s.overflowing then .ovf s.st b
  else
    match s.st with
    | .waitStart =>
      if s.prev = s.cfg.masterStart then
        if b = s.cfg.masterStart then .wsDbl else .wsStart b
      else .wsSlide b
    | .waitData =>
      match (s.append b).dataClass with
      | .append => .wdAppend b
      | .badLen => .wdBadlen b
      | .badSum => .wdBadsum b
      | .valid => dispatchRow b (s.append b).dispatchClass
    | .waitStartSlave => if b = s.cfg.slaveStart then .wssStart else .wssOther b
    | .waitDataSlave => if (s.append b).slaveDone then .wdsDone b else .wdsAppend b
    | .waitAck => ackRow s.cfg b

/-- Whether a byte of `s` reaches the AckHandler rows: in `WaitAck`, or in `WaitStartSlave` through WSS.OTHER
(R111, R114, R115), with room in the buffer. -/
def State.awaitsAck (s : State) (b : Byte) : Bool :=
  !s.overflowing && (s.st == .waitAck || (s.st == .waitStartSlave && b != s.cfg.slaveStart))

end Sys2Proof.Machine
end

