-- ==== Sys2Proof/WellFormed.lean ====
section
/-! DEFINITION. When an operation's operands lie in the domain its rule gives them, under a
configuration. -/

namespace Sys2Proof

/-- The operand checks: OVF is taken in no state `WaitStart` (R121); WS.START needs `b ≠ M` (R93); WSS.OTHER
needs `b ≠ S` (R111); ACKH.OTHER needs a byte that is no sentinel and no marker (R120); a master frame
declares at most MAX_DATA bytes and its address high byte is not `M` (R61); a slave frame declares at most
255 (R62); MKMASTER and MKSLAVE take N up to MAX_DATA and 255 (R84, R85); SENDBYTES takes at least one byte
(R130). ENQ and SETCONST take any payload: they refuse some of them themselves (R142, R145). -/
def Instr.wf (c : Config) : Instr → Bool
  | .ovf st _ => st != .waitStart
  | .wsStart b => b != c.masterStart
  | .wssOther b => b != c.slaveStart
  | .ackhOther b => b != c.ack && b != c.nak && b != c.masterStart
  | .mframe a _ data => decide (data.length ≤ maxData) && a.extractLsb' 8 8 != c.masterStart
  | .sframe _ data => decide (data.length ≤ 255)
  | .mkmaster _ _ data => decide (data.length ≤ maxData)
  | .mkslave _ data => decide (data.length ≤ 255)
  | .sendbytes p => !p.isEmpty
  | .wsDbl | .wsSlide _ | .wdAppend _ | .wdBadlen _ | .wdBadsum _ | .wdValid _ | .wdPollAns _
  | .wdPollAck _ | .wdDataAck _ | .wdPollObs _ | .wdDataObs _ | .wssStart | .wdsAppend _ | .wdsDone _
  | .wa _ | .ackhAck | .ackhNak | .ackhMark => true
  | .ackbyte | .nakbyte => true
  | .setack _ _ | .enq _ _ _ | .setprov _ _ _ | .setconst _ _ _ | .addlsn _ _ _ | .refresh _ _
  | .sweep _ | .connect | .disconnect | .connected | .loop | .inprog | .consume _ | .onframe _
  | .ontoken _ => true
  | .csum _ | .csumok _ _ | .mfvalid _ | .sfvalid _ | .dispatch | .ackh _ | .complete _ | .sendack
  | .sendnak | .tokenpoll _ _ | .fanout _ | .lsndispatch _ | .dedup _ | .broadcast _ => true

end Sys2Proof
end

