-- ==== Sys2Proof/Decode.lean ====
section
/-! DEFINITION. From raw input to operation and back (30_encoding.md): the RX word and the decode table (R66),
the wire formats (R61 to R63), the host commands (R72). INTERNAL operations have no encoding (R73). -/

namespace Sys2Proof

open Sys2Proof.Machine

/-! ### RX words: `(st << 8) | b`, 11 bits (R66) -/

/-- The numbers of the five states (R11, D6). -/
def stateCode : ParserState → Nat
  | .waitStart => 0
  | .waitStartSlave => 1
  | .waitData => 2
  | .waitDataSlave => 3
  | .waitAck => 4

/-- The state a number names; 5 to 7 name none (R11). -/
def stateOfCode : Nat → Except Reject ParserState
  | 0 => .ok .waitStart
  | 1 => .ok .waitStartSlave
  | 2 => .ok .waitData
  | 3 => .ok .waitDataSlave
  | 4 => .ok .waitAck
  | _ => .error .noSuchState

/-- The state and byte an RX word holds. -/
def decodeRxWord (w : Nat) : Except Reject (ParserState × Byte) :=
  if w < 2048 then
    match stateOfCode (w / 256) with
    | .ok st => .ok (st, BitVec.ofNat 8 w)
    | .error r => .error r
  else .error .notElevenBits

/-- The RX word of a state and a byte. -/
def rxWord (st : ParserState) (b : Byte) : Nat := stateCode st * 256 + b.toNat

/-! ### Wire formats -/

/-- The wire format a whole list of arrived bytes spells (R61 to R63). -/
def decodeWire (c : Config) (bs : List Byte) : Except Reject Instr :=
  if bs = [c.ack] then .ok .ackbyte
  else if bs = [c.nak] then .ok .nakbyte
  else if masterFrameValid c bs then
    .ok (.mframe (addrOf (byteAt bs 1) (byteAt bs 2)) (byteAt bs 3) (slice bs 5 (bs.length - 1)))
  else if slaveFrameValid c bs then .ok (.sframe (byteAt bs 1) (slice bs 3 (bs.length - 1)))
  else .error .noWireFormat

/-! ### Host commands -/

/-- A 16-bit operand. -/
def asAddr (n : Nat) : Except Reject Addr :=
  if n < 65536 then .ok (BitVec.ofNat 16 n) else .error .operandRange

/-- An 8-bit operand. -/
def asByte (n : Nat) : Except Reject Byte :=
  if n < 256 then .ok (BitVec.ofNat 8 n) else .error .operandRange

/-- A 1-bit operand. -/
def asBit : Nat → Except Reject Bool
  | 0 => .ok false
  | 1 => .ok true
  | _ => .error .operandRange

/-- The command a call stands for: code and operands as R72 lists them. -/
def decodeCall (k : Call) : Except Reject Instr :=
  match k.code.toNat, k.args, k.data with
  | 0x01, [a, en], [] => do return .setack (← asAddr a) (← asBit en)
  | 0x02, [a, t], p => do return .enq (← asAddr a) (← asByte t) p
  | 0x03, [a, t, pid], [] => do return .setprov (← asAddr a) (← asByte t) pid
  | 0x04, [a, t], p => do return .setconst (← asAddr a) (← asByte t) p
  | 0x05, [a, c, lid], [] => do return .addlsn (← asAddr a) (← asByte c) lid
  | 0x06, [e, now], [] => .ok (.refresh e now)
  | 0x07, [now], [] => .ok (.sweep now)
  | 0x08, [], [] => .ok .connect
  | 0x09, [], [] => .ok .disconnect
  | 0x0A, [], [] => .ok .connected
  | 0x0B, [], [] => .ok .loop
  | 0x0C, [], [] => .ok .inprog
  | 0x0D, [b], [] => do return .consume (← asByte b)
  | 0x0E, [cb], [] => .ok (.onframe cb)
  | 0x0F, [cb], [] => .ok (.ontoken cb)
  | n, _, _ => if 1 ≤ n ∧ n ≤ 15 then .error .operandShape else .error (.noSuchCommand k.code)

/-- The operation a raw input stands for in state `s`: a received byte through the decode table (R66), arrived
bytes as a wire format, a host call as a command. -/
def decodeInput (s : State) : Input → Except Reject Instr
  | .rx b => .ok (selectRow s b)
  | .wire bs => decodeWire s.cfg bs
  | .call k => decodeCall k

/-! ### The encoder -/

/-- The byte in hand of an RX row; where the table fixes it, the marker or sentinel it is. -/
def rowByte (c : Config) : Instr → Option Byte
  | .ovf _ b | .wsStart b | .wsSlide b | .wdAppend b | .wdBadlen b | .wdBadsum b | .wdValid b
  | .wdPollAns b | .wdPollAck b | .wdDataAck b | .wdPollObs b | .wdDataObs b | .wssOther b
  | .wdsAppend b | .wdsDone b | .wa b | .ackhOther b => some b
  | .wsDbl | .ackhMark => some c.masterStart
  | .wssStart => some c.slaveStart
  | .ackhAck => some c.ack
  | .ackhNak => some c.nak
  | .mframe _ _ _ | .sframe _ _ | .ackbyte | .nakbyte | .setack _ _ | .enq _ _ _ | .setprov _ _ _
  | .setconst _ _ _ | .addlsn _ _ _ | .refresh _ _ | .sweep _ | .connect | .disconnect | .connected
  | .loop | .inprog | .consume _ | .onframe _ | .ontoken _ | .csum _ | .csumok _ _ | .mfvalid _
  | .sfvalid _ | .mkmaster _ _ _ | .mkslave _ _ | .dispatch | .ackh _ | .complete _ | .sendbytes _
  | .sendack | .sendnak | .tokenpoll _ _ | .fanout _ | .lsndispatch _ | .dedup _ | .broadcast _ => none

/-- The state in whose row of R66 the operation stands (for the AckHandler rows, `WaitAck`). -/
def rowState : Instr → Option ParserState
  | .ovf st _ => some st
  | .wsDbl | .wsStart _ | .wsSlide _ => some .waitStart
  | .wdAppend _ | .wdBadlen _ | .wdBadsum _ | .wdValid _ | .wdPollAns _ | .wdPollAck _ | .wdDataAck _
  | .wdPollObs _ | .wdDataObs _ => some .waitData
  | .wssStart | .wssOther _ => some .waitStartSlave
  | .wdsAppend _ | .wdsDone _ => some .waitDataSlave
  | .wa _ | .ackhAck | .ackhNak | .ackhMark | .ackhOther _ => some .waitAck
  | .mframe _ _ _ | .sframe _ _ | .ackbyte | .nakbyte | .setack _ _ | .enq _ _ _ | .setprov _ _ _
  | .setconst _ _ _ | .addlsn _ _ _ | .refresh _ _ | .sweep _ | .connect | .disconnect | .connected
  | .loop | .inprog | .consume _ | .onframe _ | .ontoken _ | .csum _ | .csumok _ _ | .mfvalid _
  | .sfvalid _ | .mkmaster _ _ _ | .mkslave _ _ | .dispatch | .ackh _ | .complete _ | .sendbytes _
  | .sendack | .sendnak | .tokenpoll _ _ | .fanout _ | .lsndispatch _ | .dedup _ | .broadcast _ => none

/-- The bytes of a wire format (R61 to R63). -/
def encodeWire (c : Config) : Instr → Option (List Byte)
  | .mframe a cmd data => some (mkMaster c a cmd data)
  | .sframe cmd data => some (mkSlave c cmd data)
  | .ackbyte => some [c.ack]
  | .nakbyte => some [c.nak]
  | .ovf _ _ | .wsDbl | .wsStart _ | .wsSlide _ | .wdAppend _ | .wdBadlen _ | .wdBadsum _
  | .wdValid _ | .wdPollAns _ | .wdPollAck _ | .wdDataAck _ | .wdPollObs _ | .wdDataObs _
  | .wssStart | .wssOther _ | .wdsAppend _ | .wdsDone _ | .wa _ | .ackhAck | .ackhNak | .ackhMark
  | .ackhOther _ | .setack _ _ | .enq _ _ _ | .setprov _ _ _ | .setconst _ _ _ | .addlsn _ _ _
  | .refresh _ _ | .sweep _ | .connect | .disconnect | .connected | .loop | .inprog | .consume _
  | .onframe _ | .ontoken _ | .csum _ | .csumok _ _ | .mfvalid _ | .sfvalid _ | .mkmaster _ _ _
  | .mkslave _ _ | .dispatch | .ackh _ | .complete _ | .sendbytes _ | .sendack | .sendnak
  | .tokenpoll _ _ | .fanout _ | .lsndispatch _ | .dedup _ | .broadcast _ => none

/-- A bit as an operand. -/
def bitNat (b : Bool) : Nat := if b then 1 else 0

/-- The call of a host command (R72). -/
def encodeCall : Instr → Option Call
  | .setack a en => some ⟨0x01, [a.toNat, bitNat en], []⟩
  | .enq a t p => some ⟨0x02, [a.toNat, t.toNat], p⟩
  | .setprov a t pid => some ⟨0x03, [a.toNat, t.toNat, pid], []⟩
  | .setconst a t p => some ⟨0x04, [a.toNat, t.toNat], p⟩
  | .addlsn a c lid => some ⟨0x05, [a.toNat, c.toNat, lid], []⟩
  | .refresh e now => some ⟨0x06, [e, now], []⟩
  | .sweep now => some ⟨0x07, [now], []⟩
  | .connect => some ⟨0x08, [], []⟩
  | .disconnect => some ⟨0x09, [], []⟩
  | .connected => some ⟨0x0A, [], []⟩
  | .loop => some ⟨0x0B, [], []⟩
  | .inprog => some ⟨0x0C, [], []⟩
  | .consume b => some ⟨0x0D, [b.toNat], []⟩
  | .onframe cb => some ⟨0x0E, [cb], []⟩
  | .ontoken cb => some ⟨0x0F, [cb], []⟩
  | .ovf _ _ | .wsDbl | .wsStart _ | .wsSlide _ | .wdAppend _ | .wdBadlen _ | .wdBadsum _
  | .wdValid _ | .wdPollAns _ | .wdPollAck _ | .wdDataAck _ | .wdPollObs _ | .wdDataObs _
  | .wssStart | .wssOther _ | .wdsAppend _ | .wdsDone _ | .wa _ | .ackhAck | .ackhNak | .ackhMark
  | .ackhOther _ | .mframe _ _ _ | .sframe _ _ | .ackbyte | .nakbyte | .csum _ | .csumok _ _
  | .mfvalid _ | .sfvalid _ | .mkmaster _ _ _ | .mkslave _ _ | .dispatch | .ackh _ | .complete _
  | .sendbytes _ | .sendack | .sendnak | .tokenpoll _ _ | .fanout _ | .lsndispatch _ | .dedup _
  | .broadcast _ => none

/-- The raw input that stands for an operation; none for the INTERNAL operations, which have no encoding
(R73). -/
def encode (c : Config) (i : Instr) : Option Input :=
  match rowByte c i, encodeWire c i, encodeCall i with
  | some b, _, _ => some (.rx b)
  | none, some bs, _ => some (.wire bs)
  | none, none, some k => some (.call k)
  | none, none, none => none

/-- The opcode-table word of an operation under configuration `c`: the RX word, the first byte of a wire
format, or the command code. -/
def tableWord (c : Config) (i : Instr) : Option Nat :=
  match rowState i, rowByte c i with
  | some st, some b => some (rxWord st b)
  | _, _ =>
    match encodeWire c i with
    | some bs => bs.head?.map BitVec.toNat
    | none => (encodeCall i).map fun k => k.code.toNat

/-! ### Opcode-table words as raw input (assumption 16) -/

/-- How many scalar operands a command has (R72). -/
def callArity : Nat → Nat
  | 0x01 => 2
  | 0x02 => 2
  | 0x03 => 3
  | 0x04 => 2
  | 0x05 => 3
  | 0x06 => 2
  | 0x07 => 1
  | 0x0D => 1
  | 0x0E => 1
  | 0x0F => 1
  | _ => 0

/-- The call of a command code with operands of zeros; the payload of ENQ and SETCONST is one zero byte. -/
def zeroCall (n : Nat) : Call where
  code := BitVec.ofNat 8 n
  args := List.replicate (callArity n) 0
  data := if n = 0x02 ∨ n = 0x04 then [0] else []

/-- The parser session in which an RX word is presented, if it is one, and the raw input. -/
def tableInput (nbits w : Nat) : Option (Option ParserState × Input) :=
  if nbits = 8 ∧ w < 256 then
    if w = Config.default.masterStart.toNat then
      some (none, .wire [BitVec.ofNat 8 w, 0, 0, 0, 0, 0])
    else if w = Config.default.slaveStart.toNat then
      some (none, .wire [BitVec.ofNat 8 w, 0, 0, 0])
    else if w = Config.default.nak.toNat then some (none, .wire [BitVec.ofNat 8 w])
    else some (none, .call (zeroCall w))
  else if nbits = 16 then
    match decodeRxWord w with
    | .ok (st, b) => some (some st, .rx b)
    | .error _ => none
  else none

/-- `s` with the parser session in the shortest exchange that is in state `st`: idle (the window armed when the
byte to come is the marker), a frame just started, a poll of zeros, the same with a slave marker, a data frame
of one zero byte. -/
def enterState (s : State) (st : ParserState) (b : Byte) : State :=
  let m := s.cfg.masterStart
  match st with
  | .waitStart => { s with st := st, mem := [], cur := 0, sorg := 0, prev := if b = m then m else 0 }
  | .waitData => { s with st := st, mem := [(0, m)], cur := 2, sorg := 0, prev := 0 }
  | .waitStartSlave => { s with st := st, mem := [(0, m)], cur := 6, sorg := 0, prev := 0 }
  | .waitDataSlave =>
    { s with st := st, mem := Memory.write [(0, m)] 6 s.cfg.slaveStart, cur := 7, sorg := 6, prev := 0 }
  | .waitAck => { s with st := st, mem := [(0, m), (4, 1), (6, 1)], cur := 7, sorg := 0, prev := 0 }

/-- `s` in the parser session a raw input needs. -/
def enterFor (s : State) : Option ParserState × Input → State
  | (some st, .rx b) => enterState s st b
  | _ => s

/-- The operation the decoder reads from an opcode-table word, bit 0 the least significant. -/
def decodeTableWord (nbits w : Nat) : Option Instr :=
  match tableInput nbits w with
  | some f => (decodeInput (enterFor State.reset f) f.2).toOption
  | none => none

end Sys2Proof
end

