-- ==== Sys2Proof/Machine/CodecOps.lean ====
section
/-! DEFINITION. The codec as operations (40_checksum_codec.md): "it has no state and emits no event"; the result
goes to the caller (assumption 14). -/

namespace Sys2Proof.Machine

/-- CSUM (R80). -/
def execCsum (bs : List Byte) (s : State) : Result := .next (s.reply (.byte (csum s.cfg bs)))

/-- CSUMOK (R81). -/
def execCsumok (bs : List Byte) (k : Byte) (s : State) : Result :=
  .next (s.reply (.bit (csumOk s.cfg bs k)))

/-- MFVALID (R82). -/
def execMfvalid (f : List Byte) (s : State) : Result :=
  .next (s.reply (.bit (masterFrameValid s.cfg f)))

/-- SFVALID (R83). -/
def execSfvalid (f : List Byte) (s : State) : Result :=
  .next (s.reply (.bit (slaveFrameValid s.cfg f)))

/-- MKMASTER (R84): N ≤ MAX_DATA. -/
def execMkmaster (a : Addr) (c : Byte) (data : List Byte) (s : State) : Result :=
  if data.length ≤ maxData then .next (s.reply (.bytes (mkMaster s.cfg a c data)))
  else .refused .operandOutsideDomain

/-- MKSLAVE (R85): N ≤ 255. -/
def execMkslave (c : Byte) (data : List Byte) (s : State) : Result :=
  if data.length ≤ 255 then .next (s.reply (.bytes (mkSlave s.cfg c data)))
  else .refused .operandOutsideDomain

end Sys2Proof.Machine
end

