-- ==== Sys2Proof/Machine/Flags.lean ====
section
/-! DEFINITION. The single-bit values (10_state.md R17): `connected` is stored and read as it stands; `inprog`
is computed. "No rule sets a condition code as a side effect; there are no carry, zero, sign or overflow
flags." -/

namespace Sys2Proof.Machine

/-- `byteAvailable()`: a byte waits in the receive stream (R22). -/
def State.byteAvailable (s : State) : Bool := !s.rxq.isEmpty

/-- `inprog = (st ≠ WaitStart) ∨ byteAvailable()` (R17, R173). -/
def State.inprog (s : State) : Bool := s.st != .waitStart || s.byteAvailable

end Sys2Proof.Machine
end

