-- ==== Sys2Proof/Machine/MasterRx.lean ====
section
/-! DEFINITION. The parser's master side (41_parser_master.md): the WaitStart and WaitData rows of the decode
table, and DISPATCH. Each row's meaning is given where R66 selects the row; elsewhere the block runs another
row, and the presented one is refused (assumption 12). -/

namespace Sys2Proof.Machine

/-- The effect `o` of row `i` where the decode table selects `i` for byte `b` in `s` (R66). -/
def whenSelected (s : State) (b : Byte) (i : Instr) (o : Result) : Result :=
  if selectRow s b = i then o else .refused .notSelected

/-! ### WaitStart -/

/-- `prev <- b` (R91). -/
def slideWindow (b : Byte) (s : State) : State := { s with prev := b }

/-- `prev <- M`: one of two markers is dropped (R92). -/
def dropDoubled (s : State) : State := { s with prev := s.cfg.masterStart }

/-- A frame start: the marker and the address high byte fill `buf[0..2)` (R93). -/
def startFrame (b : Byte) (s : State) : State :=
  { (s.writeBuf 0 s.cfg.masterStart).writeBuf 1 b with cur := 2, st := .waitData, prev := b }

/-- The WaitStart rules (R91 to R93). -/
def waitStartRules (b : Byte) (s : State) : State :=
  if s.prev = s.cfg.masterStart then
    if b = s.cfg.masterStart then dropDoubled s else startFrame b s
  else slideWindow b s

/-- OVF (R121): BufferOverflow is raised on a full buffer, and the byte in hand goes to the WaitStart
rules. -/
def execOvf (st : ParserState) (b : Byte) (s : State) : Result :=
  whenSelected s b (.ovf st b) (.next (waitStartRules b (raiseError .bufferOverflow s)))

/-- WS.DBL (R92). -/
def execWsDbl (s : State) : Result :=
  whenSelected s s.cfg.masterStart .wsDbl (.next (dropDoubled s))

/-- WS.START (R93). -/
def execWsStart (b : Byte) (s : State) : Result :=
  whenSelected s b (.wsStart b) (.next (startFrame b s))

/-- WS.SLIDE (R91). -/
def execWsSlide (b : Byte) (s : State) : Result :=
  whenSelected s b (.wsSlide b) (.next (slideWindow b s))

/-! ### WaitData -/

/-- R100 after the poll: send `p`, copy it into the transcript, wait for the master's ack. -/
def answerPoll (p : List Byte) (s : State) : Result :=
  andThen (pushBytes p (sendBytes p s)) fun t => .next { t with st := .waitAck }

/-- R101 and R102: send the block's own ack, append it, flush. -/
def ackAndComplete (s : State) : Result :=
  andThen (pushByte s.cfg.ack (sendBytes [s.cfg.ack] s)) fun t => .next (complete 0 t)

/-- `TokenPoll` for the frame in the buffer: the state it leaves. -/
def State.polled (s : State) : State := afterPoll s s.frameAddr s.frameCmd

/-- The rule a class of `Dispatch()` stands for (R99 to R104). -/
def runDispatch (d : DispatchClass) (s : State) : Result :=
  match d with
  | .pollAns p => answerPoll p s.polled
  | .pollAck => ackAndComplete s.polled
  | .dataAck => ackAndComplete s
  | .pollObs => .next { s with st := .waitStartSlave }
  | .dataObs => .next { s with st := .waitAck }
  | .outOfContract => .refused .providerOutOfContract

/-- DISPATCH (R99). -/
def execDispatch (s : State) : Result := runDispatch s.dispatchClass s

/-- WD.APPEND (R94). -/
def execWdAppend (b : Byte) (s : State) : Result :=
  whenSelected s b (.wdAppend b) (.next (s.append b))

/-- WD.BADLEN (R95). -/
def execWdBadlen (b : Byte) (s : State) : Result :=
  whenSelected s b (.wdBadlen b) (.next (raiseError .malformedFrame (s.append b)))

/-- WD.BADSUM (R96): no nak is sent (C1). -/
def execWdBadsum (b : Byte) (s : State) : Result :=
  whenSelected s b (.wdBadsum b) (.next (raiseError .checksumMismatch (s.append b)))

/-- WD.VALID (R97): the frame is whole and its checksum right; delegates to DISPATCH, which selects one of the
next five rows. -/
def execWdValid (b : Byte) (s : State) : Result :=
  if s.overflowing = false ∧ s.st = .waitData ∧ (s.append b).dataClass = .valid then
    execDispatch (s.append b)
  else .refused .notSelected

/-- WD.POLL.ANS (R100). A provider that broke its contract gives the step no meaning (R148). -/
def execWdPollAns (b : Byte) (s : State) : Result :=
  whenSelected s b (.wdPollAns b)
    (match (s.append b).dispatchClass with
      | .pollAns p => answerPoll p (s.append b).polled
      | _ => .refused .providerOutOfContract)

/-- WD.POLL.ACK (R101). -/
def execWdPollAck (b : Byte) (s : State) : Result :=
  whenSelected s b (.wdPollAck b) (ackAndComplete (s.append b).polled)

/-- WD.DATA.ACK (R102). -/
def execWdDataAck (b : Byte) (s : State) : Result :=
  whenSelected s b (.wdDataAck b) (ackAndComplete (s.append b))

/-- WD.POLL.OBS (R103). -/
def execWdPollObs (b : Byte) (s : State) : Result :=
  whenSelected s b (.wdPollObs b) (.next { s.append b with st := .waitStartSlave })

/-- WD.DATA.OBS (R104). -/
def execWdDataObs (b : Byte) (s : State) : Result :=
  whenSelected s b (.wdDataObs b) (.next { s.append b with st := .waitAck })

/-- `WD(b)`: the append and the tests after it (R94 to R97). -/
def waitDataRules (b : Byte) (s : State) : Result :=
  andThen (pushByte b s) fun t =>
    match t.dataClass with
    | .append => .next t
    | .badLen => .next (raiseError .malformedFrame t)
    | .badSum => .next (raiseError .checksumMismatch t)
    | .valid => execDispatch t

end Sys2Proof.Machine
end

