-- ==== Sys2Proof/Machine/SlaveRx.lean ====
section
/-! DEFINITION. The parser's slave side, the ack/nak handler and the flush (42_parser_slave_ack.md), and
`CONSUME(b)`, the per-byte operation (R90). -/

namespace Sys2Proof.Machine

/-! ### The ack/nak handler -/

/-- R116, after the append. -/
def finishAck (s : State) : State := complete 0 s

/-- R117, after the append: identical to R116; nothing goes back to a queue. -/
def finishNak (s : State) : State := complete 0 s

/-- R119, after the append: the marker is rolled back out of the transcript and seeds the window. -/
def finishMark (s : State) : State := complete s.cfg.masterStart { s with cur := s.cur - 1 }

/-- R120, after the append: logged, and the exchange completed. -/
def finishOther (s : State) : State := raiseError .unexpectedAckByte s

/-- The four disjoint classes of the handler, after the append (R115). -/
def classifyAck (b : Byte) (s : State) : State :=
  if b = s.cfg.ack then finishAck s
  else if b = s.cfg.nak then finishNak s
  else if b = s.cfg.masterStart then finishMark s
  else finishOther s

/-- ACKH (R115). -/
def execAckh (b : Byte) (s : State) : Result :=
  andThen (pushByte b s) fun t => .next (classifyAck b t)

/-- The effect `t` of an AckHandler row where byte `b` reaches that row `i` (R66, R111, R114). -/
def whenAckRow (s : State) (b : Byte) (i : Instr) (t : State) : Result :=
  if s.awaitsAck b = true ∧ ackRow s.cfg b = i then .next t else .refused .notSelected

/-- ACKH.ACK (R116). -/
def execAckhAck (s : State) : Result :=
  whenAckRow s s.cfg.ack .ackhAck (finishAck (s.append s.cfg.ack))

/-- ACKH.NAK (R117). -/
def execAckhNak (s : State) : Result :=
  whenAckRow s s.cfg.nak .ackhNak (finishNak (s.append s.cfg.nak))

/-- ACKH.MARK (R119). -/
def execAckhMark (s : State) : Result :=
  whenAckRow s s.cfg.masterStart .ackhMark (finishMark (s.append s.cfg.masterStart))

/-- ACKH.OTHER (R120). -/
def execAckhOther (b : Byte) (s : State) : Result :=
  whenAckRow s b (.ackhOther b) (finishOther (s.append b))

/-- WA (R114): every byte in `WaitAck` goes to the AckHandler. -/
def execWa (b : Byte) (s : State) : Result :=
  if s.overflowing = false ∧ s.st = .waitAck then execAckh b s else .refused .notSelected

/-! ### WaitStartSlave and WaitDataSlave -/

/-- R110: the offset of the slave start marker is remembered, and the marker appended. -/
def startSlaveFrame (s : State) : State :=
  { s.append s.cfg.slaveStart with sorg := s.cur, st := .waitDataSlave }

/-- WSS.START (R110). -/
def execWssStart (s : State) : Result :=
  whenSelected s s.cfg.slaveStart .wssStart (.next (startSlaveFrame s))

/-- WSS.OTHER (R111): delegates to the AckHandler. -/
def execWssOther (b : Byte) (s : State) : Result :=
  whenSelected s b (.wssOther b) (execAckh b s)

/-- WDS.APPEND (R112). -/
def execWdsAppend (b : Byte) (s : State) : Result :=
  whenSelected s b (.wdsAppend b) (.next (s.append b))

/-- WDS.DONE (R113): the slave frame's checksum is not validated. -/
def execWdsDone (b : Byte) (s : State) : Result :=
  whenSelected s b (.wdsDone b) (.next { s.append b with st := .waitAck })

/-- The WaitStartSlave rules (R110, R111). -/
def waitStartSlaveRules (b : Byte) (s : State) : Result :=
  if b = s.cfg.slaveStart then
    andThen (pushByte b s) fun t => .next { t with sorg := s.cur, st := .waitDataSlave }
  else execAckh b s

/-- `WDS(b)` (R112, R113). -/
def waitDataSlaveRules (b : Byte) (s : State) : Result :=
  andThen (pushByte b s) fun t => .next (if t.slaveDone then { t with st := .waitAck } else t)

/-! ### The per-byte operation -/

/-- The overflow guard at the entry of `CONSUME` (R90, R121). -/
def overflowGuard (s : State) : State :=
  if s.overflowing then raiseError .bufferOverflow s else s

/-- The case on `st` after the guard (R90). -/
def parserRules (b : Byte) (s : State) : Result :=
  match s.st with
  | .waitStart => .next (waitStartRules b s)
  | .waitData => waitDataRules b s
  | .waitStartSlave => waitStartSlaveRules b s
  | .waitDataSlave => waitDataSlaveRules b s
  | .waitAck => execAckh b s

/-- `CONSUME(b)` (R90). -/
def consumeByte (b : Byte) (s : State) : Result := parserRules b (overflowGuard s)

/-- COMPLETE (R118). -/
def execComplete (t : Byte) (s : State) : Result := .next (complete t s)

end Sys2Proof.Machine
end

