-- ==== Sys2Proof/Machine/HostPort.lean ====
section
/-! DEFINITION. The host commands that are not the multiplexer's, and the driving loop
(45_host_interface.md). -/

namespace Sys2Proof.Machine

/-- CONNECT (R174). -/
def execConnect (s : State) : Result := .next ({ s with connected := true }.reply .done)

/-- DISCONNECT (R175). -/
def execDisconnect (s : State) : Result := .next ({ s with connected := false }.reply .done)

/-- CONNECTED (R176). -/
def execConnected (s : State) : Result := .next (s.reply (.bit s.connected))

/-- INPROG (R173). -/
def execInprog (s : State) : Result := .next (s.reply (.bit s.inprog))

/-- The body of the driving loop over the waiting bytes: `readByte()` removes the oldest, `CONSUME` takes it
(R172). -/
def drain : List Byte → State → Result
  | [], s => .next { s with rxq := [] }
  | b :: bs, s => andThen (consumeByte b { s with rxq := bs }) (drain bs)

/-- LOOP (R172): nothing while `connected` = 0, else every waiting byte is consumed (assumption 7). -/
def execLoop (s : State) : Result :=
  andThen (if s.connected then drain s.rxq s else .next s) fun t => .next (t.reply .done)

/-- CONSUME as a host command (R171): it does not look at `connected`. -/
def execConsume (b : Byte) (s : State) : Result :=
  andThen (consumeByte b s) fun t => .next (t.reply .done)

/-- ONFRAME (R177): the frame-received port is bound, and in this block "bound permanently to the
multiplexer's FanOut"; which callback is named changes nothing else (assumption 11). -/
def execOnframe (_cb : CallbackId) (s : State) : Result :=
  .next ({ s with frameBound := true }.reply .done)

/-- ONTOKEN (R178): the token-poll port is bound, and in this block "bound permanently to the multiplexer's
TokenPoll" (assumption 11). -/
def execOntoken (_cb : CallbackId) (s : State) : Result :=
  .next ({ s with tokenBound := true }.reply .done)

end Sys2Proof.Machine
end

