-- ==== Sys2Proof/Machine/Mux.lean ====
section
/-! DEFINITION. The request multiplexer (44_multiplexer.md): the acknowledge set, the request queues and
fallbacks, the listeners and the broadcast targets. -/

namespace Sys2Proof.Machine

/-- SETACK (R141). -/
def execSetack (a : Addr) (en : Bool) (s : State) : Result :=
  .next ({ s with ackset := if en then setInsert addrCode s.ackset a else setErase s.ackset a }.reply .done)

/-- Whether ENQ and SETCONST take a payload: 1 to MAX_RESP bytes (R142, R145, D13). -/
def payloadOk (p : List Byte) : Bool := !p.isEmpty && decide (p.length ≤ maxResp)

/-- The queue after `p` is pushed: the oldest entry is dropped when the queue is at its depth (R142). -/
def enqueue (depth : Nat) (q : List (List Byte)) (p : List Byte) : List (List Byte) :=
  (if depth ≤ q.length then q.drop 1 else q) ++ [p]

/-- ENQ (R142). -/
def execEnq (a : Addr) (t : Byte) (p : List Byte) (s : State) : Result :=
  if payloadOk p then
    .next ((s.setEntry ⟨a, t⟩
      { s.entry ⟨a, t⟩ with queue := enqueue s.cfg.queueDepth (s.entry ⟨a, t⟩).queue p }).reply .done)
  else .next (s.reply .refused)

/-- SETPROV (R144). -/
def execSetprov (a : Addr) (t : Byte) (pid : ProviderId) (s : State) : Result :=
  .next ((s.setEntry ⟨a, t⟩ { s.entry ⟨a, t⟩ with fallback := .provider pid }).reply .done)

/-- SETCONST (R145). -/
def execSetconst (a : Addr) (t : Byte) (p : List Byte) (s : State) : Result :=
  if payloadOk p then
    .next ((s.setEntry ⟨a, t⟩ { s.entry ⟨a, t⟩ with fallback := .const p }).reply .done)
  else .next (s.reply .refused)

/-- TOKENPOLL (R146): the optional byte list goes to the caller. -/
def execTokenpoll (a : Addr) (c : Byte) (s : State) : Result :=
  match pollAnswer s a c with
  | .supplied p => .next ((afterPoll s a c).reply (.optBytes (some p)))
  | .nothing => .next ((afterPoll s a c).reply (.optBytes none))
  | .outOfContract => .refused .providerOutOfContract

/-- ADDLSN (R150). -/
def execAddlsn (a : Addr) (c : Byte) (lid : ListenerId) (s : State) : Result :=
  .next ((s.setListener ⟨a, c⟩ lid).reply .done)

/-- FANOUT (R152). -/
def execFanout (tr : List Byte) (s : State) : Result := .next (fanOut tr s)

/-- LSNDISPATCH (R153). -/
def execLsndispatch (tr : List Byte) (s : State) : Result := .next (listenerDispatch tr s)

/-- DEDUP (R155). -/
def execDedup (p : List Byte) (s : State) : Result := .next (s.reply (.bytes (dedupBytes s.cfg p)))

/-- BROADCAST (R156). -/
def execBroadcast (tr : List Byte) (s : State) : Result := .next (broadcastAll tr s)

/-- REFRESH (R160). -/
def execRefresh (e : Endpoint) (now : Nat) (s : State) : Result :=
  .next ((s.setTarget e now).reply .done)

/-- `tgt` after `SWEEP(now)` (R161): static targets are refreshed; another target goes when it has been idle
for more than TARGET_TIMEOUT, in truncated subtraction (R162). -/
def sweepTargets (c : Config) (now : Nat) (t : List (Endpoint × Nat)) : List (Endpoint × Nat) :=
  (c.staticTargets.foldl (fun t e => tableSet id t e now) t).filter fun x =>
    decide (x.1 ∈ c.staticTargets) || decide (now - x.2 ≤ c.targetTimeout)

/-- SWEEP (R161). -/
def execSweep (now : Nat) (s : State) : Result :=
  .next ({ s with tgt := sweepTargets s.cfg now s.tgt }.reply .done)

end Sys2Proof.Machine
end

