-- ==== Sys2Proof/Machine/Transmit.lean ====
section
/-! DEFINITION. The half-duplex transmit sequencer (43_transmit.md). -/

namespace Sys2Proof.Machine

/-- SENDBYTES (R130): its operand has at least one byte. -/
def execSendbytes (p : List Byte) (s : State) : Result :=
  if p = [] then .refused .operandOutsideDomain else .next (sendBytes p s)

/-- SENDACK (R131). -/
def execSendack (s : State) : Result := .next (sendBytes [s.cfg.ack] s)

/-- SENDNAK (R132): defined, and called by no rule (C1). -/
def execSendnak (s : State) : Result := .next (sendBytes [s.cfg.nak] s)

end Sys2Proof.Machine
end

