-- ==== Sys2Proof/Machine/WireOps.lean ====
section
/-! DEFINITION. The wire formats as operations of the bus (30_encoding.md R60 to R63): the bytes of the format
arrive and wait in the receive stream (R22), from which LOOP reads them (assumption 13). -/

namespace Sys2Proof.Machine

/-- Bytes arrive and wait, in order (R22, R41). -/
def deliver (bs : List Byte) (s : State) : State := { s with rxq := s.rxq ++ bs }

/-- MFRAME (R61). More than 255 data bytes cannot be spelt by the length byte. -/
def execMframe (a : Addr) (c : Byte) (data : List Byte) (s : State) : Result :=
  if data.length ≤ 255 then .next (deliver (mkMaster s.cfg a c data) s)
  else .refused .operandOutsideDomain

/-- SFRAME (R62). More than 255 data bytes cannot be spelt by the length byte. -/
def execSframe (c : Byte) (data : List Byte) (s : State) : Result :=
  if data.length ≤ 255 then .next (deliver (mkSlave s.cfg c data) s)
  else .refused .operandOutsideDomain

/-- ACKBYTE (R63). -/
def execAckbyte (s : State) : Result := .next (deliver [s.cfg.ack] s)

/-- NAKBYTE (R63). -/
def execNakbyte (s : State) : Result := .next (deliver [s.cfg.nak] s)

end Sys2Proof.Machine
end

