-- ==== Sys2Proof/Machine/Dispatch.lean ====
section
/-! DEFINITION. The dispatch: one arm per operation of the opcode table. -/

namespace Sys2Proof.Machine

def exec (i : Instr) (s : State) : Host.Outcome State Fault Refusal :=
  match i with
  | .ovf st b => Sys2Proof.Machine.execOvf st b s
  | .wsDbl => Sys2Proof.Machine.execWsDbl s
  | .wsStart b => Sys2Proof.Machine.execWsStart b s
  | .wsSlide b => Sys2Proof.Machine.execWsSlide b s
  | .wdAppend b => Sys2Proof.Machine.execWdAppend b s
  | .wdBadlen b => Sys2Proof.Machine.execWdBadlen b s
  | .wdBadsum b => Sys2Proof.Machine.execWdBadsum b s
  | .wdValid b => Sys2Proof.Machine.execWdValid b s
  | .wdPollAns b => Sys2Proof.Machine.execWdPollAns b s
  | .wdPollAck b => Sys2Proof.Machine.execWdPollAck b s
  | .wdDataAck b => Sys2Proof.Machine.execWdDataAck b s
  | .wdPollObs b => Sys2Proof.Machine.execWdPollObs b s
  | .wdDataObs b => Sys2Proof.Machine.execWdDataObs b s
  | .wssStart => Sys2Proof.Machine.execWssStart s
  | .wssOther b => Sys2Proof.Machine.execWssOther b s
  | .wdsAppend b => Sys2Proof.Machine.execWdsAppend b s
  | .wdsDone b => Sys2Proof.Machine.execWdsDone b s
  | .wa b => Sys2Proof.Machine.execWa b s
  | .ackhAck => Sys2Proof.Machine.execAckhAck s
  | .ackhNak => Sys2Proof.Machine.execAckhNak s
  | .ackhMark => Sys2Proof.Machine.execAckhMark s
  | .ackhOther b => Sys2Proof.Machine.execAckhOther b s
  | .mframe a c data => Sys2Proof.Machine.execMframe a c data s
  | .sframe c data => Sys2Proof.Machine.execSframe c data s
  | .ackbyte => Sys2Proof.Machine.execAckbyte s
  | .nakbyte => Sys2Proof.Machine.execNakbyte s
  | .setack a en => Sys2Proof.Machine.execSetack a en s
  | .enq a t p => Sys2Proof.Machine.execEnq a t p s
  | .setprov a t pid => Sys2Proof.Machine.execSetprov a t pid s
  | .setconst a t p => Sys2Proof.Machine.execSetconst a t p s
  | .addlsn a c lid => Sys2Proof.Machine.execAddlsn a c lid s
  | .refresh e now => Sys2Proof.Machine.execRefresh e now s
  | .sweep now => Sys2Proof.Machine.execSweep now s
  | .connect => Sys2Proof.Machine.execConnect s
  | .disconnect => Sys2Proof.Machine.execDisconnect s
  | .connected => Sys2Proof.Machine.execConnected s
  | .loop => Sys2Proof.Machine.execLoop s
  | .inprog => Sys2Proof.Machine.execInprog s
  | .consume b => Sys2Proof.Machine.execConsume b s
  | .onframe cb => Sys2Proof.Machine.execOnframe cb s
  | .ontoken cb => Sys2Proof.Machine.execOntoken cb s
  | .csum bs => Sys2Proof.Machine.execCsum bs s
  | .csumok bs k => Sys2Proof.Machine.execCsumok bs k s
  | .mfvalid f => Sys2Proof.Machine.execMfvalid f s
  | .sfvalid f => Sys2Proof.Machine.execSfvalid f s
  | .mkmaster a c data => Sys2Proof.Machine.execMkmaster a c data s
  | .mkslave c data => Sys2Proof.Machine.execMkslave c data s
  | .dispatch => Sys2Proof.Machine.execDispatch s
  | .ackh b => Sys2Proof.Machine.execAckh b s
  | .complete t => Sys2Proof.Machine.execComplete t s
  | .sendbytes p => Sys2Proof.Machine.execSendbytes p s
  | .sendack => Sys2Proof.Machine.execSendack s
  | .sendnak => Sys2Proof.Machine.execSendnak s
  | .tokenpoll a c => Sys2Proof.Machine.execTokenpoll a c s
  | .fanout tr => Sys2Proof.Machine.execFanout tr s
  | .lsndispatch tr => Sys2Proof.Machine.execLsndispatch tr s
  | .dedup p => Sys2Proof.Machine.execDedup p s
  | .broadcast tr => Sys2Proof.Machine.execBroadcast tr s

end Sys2Proof.Machine
end

