-- ==== Sys2Proof/Machine/Step.lean ====
section
/-! DEFINITION. One step of the machine: the next thing the bus or the host does is taken from the schedule,
decoded and run to completion (20_memory.md R46, R47; assumption 6). -/

namespace Sys2Proof.Machine

/-- One step. A configuration that breaks R6 has no meaning. With nothing scheduled the block waits: every
action of it answers a byte or a command (R197, R203). Bytes that arrive wait in the receive stream whether or
not they spell a wire format (R4: "any byte sequence, including noise"). -/
def step (s : State) : Host.Outcome State Fault Refusal :=
  if s.cfg.legal then
    match s.inputs with
    | [] => .next s
    | i :: rest =>
      match decodeInput { s with inputs := rest } i, i with
      | .ok instr, _ => exec instr { s with inputs := rest }
      | .error _, .wire bs => .next (deliver bs { s with inputs := rest })
      | .error r, _ => .refused (.undecodable r)
  else .refused .illegalConfig

/-- `s` with the operation of an opcode-table word next: scheduled first, and for an RX word the parser session
in the state the word names (assumption 16). -/
def State.withFetchWord (s : State) (nbits w : Nat) : State :=
  match tableInput nbits w with
  | some f => { enterFor s f with inputs := f.2 :: s.inputs }
  | none => s

end Sys2Proof.Machine
end

