-- ==== Sys2Proof/Safety.lean ====
section
/-! DEFINITION. What the claims speak of: the invariant of every step boundary (10_state.md R26), what a flush
delivers, how a list of bytes is fed to the parser, and when two states differ only in stale bytes. -/

namespace Sys2Proof.Machine

/-- The invariant of R26, clauses (i) to (vii), with the canonical forms of memory and tables, the range of
`cur` (R13) and of `buf` (R45), and the bound R145 puts on constants. -/
structure State.Inv (s : State) : Prop where
  legal : s.cfg.legal = true
  memWf : Memory.wf s.mem
  memRange : ∀ x ∈ s.mem, x.1 < s.cfg.bufCap
  acksetWf : SetWf addrCode s.ackset
  reqWf : TableWf keyCode s.req
  reqNonempty : ∀ x ∈ s.req, x.2 ≠ ReqEntry.empty
  lsnWf : TableWf keyCode s.lsn
  tgtWf : TableWf id s.tgt
  curRange : s.cur ≤ s.cfg.bufCap
  /-- (i) -/
  idle : s.st = .waitStart ↔ s.cur = 0
  /-- (ii) -/
  data : s.st = .waitData →
    2 ≤ s.cur ∧ s.readBuf 0 = s.cfg.masterStart ∧ s.readBuf 1 ≠ s.cfg.masterStart ∧
    (5 ≤ s.cur → s.frameLen ≤ maxData ∧ s.cur < 6 + s.frameLen)
  /-- (iii) -/
  framed : s.st = .waitStartSlave ∨ s.st = .waitDataSlave ∨ s.st = .waitAck →
    6 ≤ s.cur ∧ 6 + s.frameLen ≤ s.cur ∧
    masterFrameValid s.cfg (s.bufSlice 0 (6 + s.frameLen)) = true
  /-- (iv) -/
  polled : s.st = .waitStartSlave → s.frameLen = 0 ∧ s.cur = 6
  /-- (v) -/
  slaveData : s.st = .waitDataSlave →
    s.sorg = 6 ∧ s.readBuf s.sorg = s.cfg.slaveStart ∧ s.sorg < s.cur ∧ s.slaveDone = false
  /-- (vi) -/
  queues : ∀ x ∈ s.req, x.2.queue.length ≤ s.cfg.queueDepth ∧
    ∀ p ∈ x.2.queue, 1 ≤ p.length ∧ p.length ≤ maxResp
  constants : ∀ x ∈ s.req,
    match x.2.fallback with
    | .const p => 1 ≤ p.length ∧ p.length ≤ maxResp
    | .provider _ | .none => True
  /-- (vii) -/
  statics : ∀ e ∈ s.cfg.staticTargets, e ∈ tableKeys s.tgt

/-- Every registered provider keeps its contract at every call: none, or at most MAX_RESP bytes (R23, R148). -/
def State.ProvidersInContract (s : State) : Prop :=
  ∀ k pid n, (s.entry k).fallback = .provider pid →
    judgeProvider (Config.freeProvider pid k.addr k.tok n) ≠ .outOfContract

/-- The events by which transcript `tr` is delivered in `s`: `FrameReceived`, and where the port is bound the
listener's event and one `Broadcast` per target, the broadcasts in some order (R118, R152, R156). That the
listener's event comes before the broadcasts is the choice of assumption 19 (D32). -/
def IsDelivery (s : State) (tr : List Byte) (es : List Event) : Prop :=
  if s.frameBound then
    ∃ order : List Endpoint, order.Perm (tableKeys s.tgt) ∧
      es = .frameReceived tr :: (listenerEvents s tr ++ order.map fun e => .broadcast e tr)
  else es = [.frameReceived tr]

/-- `t` is `s` after transcript `tr` was flushed, events `pre` before it, and the window seeded with `seed`
(R118): only the session registers, the trace and the broadcast-choice counter may differ. What the buffer
holds is said apart. -/
def Flushed (s t : State) (pre : List Event) (tr : List Byte) (seed : Byte) : Prop :=
  t = { s with
        mem := t.mem, st := .waitStart, cur := 0, sorg := 0, prev := seed,
        trace := t.trace, picks := t.picks } ∧
  ∃ es, IsDelivery s tr es ∧ t.trace = s.trace ++ pre ++ es

/-- The buffer of `t` is that of `s` with `bs` at the cursor of `s`, every other byte as before. -/
def BufAppended (s t : State) (bs : List Byte) : Prop :=
  ∀ i, t.readBuf i =
    if s.cur ≤ i ∧ i < s.cur + bs.length then byteAt bs (i - s.cur) else s.readBuf i

/-- The frame in the buffer lacks only its last byte, and `b` is its right checksum (R65, R96, R97). -/
def State.FrameEnds (s : State) (b : Byte) : Prop :=
  s.st = .waitData ∧ s.cur < s.cfg.bufCap ∧ s.cur = 5 + s.frameLen ∧
  b = csum s.cfg (s.bufSlice 1 (5 + s.frameLen))

/-- A list of operations run one after the other. -/
def runAll : List Instr → State → Result
  | [], s => .next s
  | i :: is, s => andThen (exec i s) (runAll is)

/-- A list of bytes consumed one after the other (the `rx` line of R74). -/
def feed : List Byte → State → Result
  | [], s => .next s
  | b :: bs, s => andThen (consumeByte b s) (feed bs)

/-- Two states that differ at most in bytes of `buf` at or above the cursor (R12). -/
def StaleEq (s t : State) : Prop :=
  t = { s with mem := t.mem } ∧ ∀ i, i < s.cur → t.readBuf i = s.readBuf i

/-- Two outcomes that stop for the same reason, or go on in states related by `r`. -/
def OutcomeRel (r : State → State → Prop) : Result → Result → Prop
  | .next s, .next t => r s t
  | .fault e, .fault f => e = f
  | .refused e, .refused f => e = f
  | _, _ => False

/-- Whether an event is a write on the transport (R130). -/
def Event.isWrite : Event → Bool
  | .write _ => true
  | _ => false

/-- Whether an event drives the transport (R133). -/
def Event.isTransport : Event → Bool
  | .dir _ | .delay _ | .write _ | .flush => true
  | _ => false

/-- Whether an event is an error log (R191). -/
def Event.isLog : Event → Bool
  | .log _ => true
  | _ => false

/-- Whether an event is a delivered transcript. -/
def Event.isFrameReceived : Event → Bool
  | .frameReceived _ => true
  | _ => false

/-- The edges of the transition graph (R125), but for those of R121. -/
def graphEdge : ParserState → ParserState → Bool
  | .waitStart, .waitStart | .waitStart, .waitData => true
  | .waitData, .waitData | .waitData, .waitStart | .waitData, .waitStartSlave
  | .waitData, .waitAck => true
  | .waitStartSlave, .waitDataSlave | .waitStartSlave, .waitStart => true
  | .waitDataSlave, .waitDataSlave | .waitDataSlave, .waitAck => true
  | .waitAck, .waitStart => true
  | _, _ => false

/-- The doubling of every marker, which `Dedup` undoes (R9, R155). -/
def stuff (c : Config) : List Byte → List Byte
  | [] => []
  | x :: xs =>
    if x = c.masterStart then c.masterStart :: c.masterStart :: stuff c xs else x :: stuff c xs

/-- The rows of the decode table that do not merely delegate to other rows (R66). -/
def isLeafRow : Instr → Bool
  | .ovf _ _ | .wsDbl | .wsStart _ | .wsSlide _ | .wdAppend _ | .wdBadlen _ | .wdBadsum _
  | .wdPollAns _ | .wdPollAck _ | .wdDataAck _ | .wdPollObs _ | .wdDataObs _ | .wssStart
  | .wdsAppend _ | .wdsDone _ | .ackhAck | .ackhNak | .ackhMark | .ackhOther _ => true
  | .wdValid _ | .wssOther _ | .wa _ | .mframe _ _ _ | .sframe _ _ | .ackbyte | .nakbyte
  | .setack _ _ | .enq _ _ _ | .setprov _ _ _ | .setconst _ _ _ | .addlsn _ _ _ | .refresh _ _
  | .sweep _ | .connect | .disconnect | .connected | .loop | .inprog | .consume _ | .onframe _
  | .ontoken _ | .csum _ | .csumok _ _ | .mfvalid _ | .sfvalid _ | .mkmaster _ _ _ | .mkslave _ _
  | .dispatch | .ackh _ | .complete _ | .sendbytes _ | .sendack | .sendnak | .tokenpoll _ _
  | .fanout _ | .lsndispatch _ | .dedup _ | .broadcast _ => false

end Sys2Proof.Machine
end

