-- ==== Sys2Proof/Certificates/Slice0/Obligations.lean ====
section
/-! DEFINITION. The statements for the provers, from the numbered rules of spec/. "Completes" means that exec
answers a next state. Every statement holds for every configuration, not only the default one. -/

open Sys2Proof Sys2Proof.Machine

/-! ### Encoding, decoding, and the step -/

/-- R66, R72: opcode-table words written out from the table decode to the operations they stand for. An RX word
is `(st << 8) | b`; the default markers and sentinels are those of R5. Rows that overlap on a word are chosen by
the session of assumption 16. -/
def Obligations.OpcodeTableWordsDecode : Prop :=
  decodeTableWord 16 0x05C = some .wsDbl ∧
  decodeTableWord 16 0x1C0 = some .wssStart ∧
  decodeTableWord 16 0x177 = some (.wssOther 0x77) ∧
  decodeTableWord 16 0x406 = some .ackhAck ∧
  decodeTableWord 16 0x415 = some .ackhNak ∧
  decodeTableWord 16 0x45C = some .ackhMark ∧
  decodeTableWord 16 0x220 = some (.wdAppend 0x20) ∧
  decodeTableWord 16 0x369 = some (.wdsAppend 0x69) ∧
  decodeTableWord 8 0x5C = some (.mframe 0 0 []) ∧
  decodeTableWord 8 0xC0 = some (.sframe 0 []) ∧
  decodeTableWord 8 0x15 = some .nakbyte ∧
  decodeTableWord 8 0x01 = some (.setack 0 false) ∧
  decodeTableWord 8 0x0D = some (.consume 0) ∧
  decodeTableWord 8 0x10 = none ∧
  decodeTableWord 16 0x500 = none

/-- R46, R47: when what the environment or the host does next decodes to an operation, the step is that
operation, run in the state that no longer holds the input. -/
def Obligations.StepRunsDecodedOperation : Prop :=
  ∀ (s : State) (inp : Input) (rest : List Input) (i : Instr),
    s.cfg.legal = true → s.inputs = inp :: rest →
    decodeInput { s with inputs := rest } inp = .ok i →
    step s = exec i { s with inputs := rest }

/-- The steps that run no operation (assumption 6): with nothing scheduled the block waits; bytes that spell no
wire format still arrive (R4); a call that is none of the fifteen commands has no meaning (R170). -/
def Obligations.StepWithoutOperation : Prop :=
  ∀ s : State, s.cfg.legal = true →
    (s.inputs = [] → step s = .next s) ∧
    (∀ bs rest r, s.inputs = .wire bs :: rest → decodeWire s.cfg bs = .error r →
      step s = .next { s with rxq := s.rxq ++ bs, inputs := rest }) ∧
    (∀ k rest r, s.inputs = .call k :: rest → decodeCall k = .error r →
      step s = .refused (.undecodable r))

/-- R6: a configuration that breaks a constraint is refused; one that satisfies all of them is not. -/
def Obligations.IllegalConfigurationHasNoMeaning : Prop :=
  ∀ s : State,
    (¬(s.cfg.masterStart ≠ s.cfg.slaveStart ∧ s.cfg.masterStart ≠ s.cfg.ack ∧
       s.cfg.masterStart ≠ s.cfg.nak ∧ s.cfg.slaveStart ≠ s.cfg.ack ∧
       s.cfg.slaveStart ≠ s.cfg.nak ∧ s.cfg.ack ≠ s.cfg.nak ∧ s.cfg.masterStart ≠ 0 ∧
       s.cfg.subst ≠ s.cfg.masterStart ∧ 257 ≤ s.cfg.bufCap ∧ 1 ≤ s.cfg.queueDepth) →
      step s = .refused .illegalConfig) ∧
    ((s.cfg.masterStart ≠ s.cfg.slaveStart ∧ s.cfg.masterStart ≠ s.cfg.ack ∧
       s.cfg.masterStart ≠ s.cfg.nak ∧ s.cfg.slaveStart ≠ s.cfg.ack ∧
       s.cfg.slaveStart ≠ s.cfg.nak ∧ s.cfg.ack ≠ s.cfg.nak ∧ s.cfg.masterStart ≠ 0 ∧
       s.cfg.subst ≠ s.cfg.masterStart ∧ 257 ≤ s.cfg.bufCap ∧ 1 ≤ s.cfg.queueDepth) →
      step s ≠ .refused .illegalConfig)

/-- R61 to R63, R72: a well-formed wire format or host command, encoded and decoded again, is itself, with every
operand at every value. The operand layout of a host call is the model's (assumption 15). -/
def Obligations.DecodeUndoesEncode : Prop :=
  ∀ (s : State) (i : Instr) (inp : Input),
    s.cfg.legal = true → i.wf s.cfg = true → rowState i = none → encode s.cfg i = some inp →
    decodeInput s inp = .ok i

/-- R66: the row the decode table selects for byte `b` in state `s` carries the word `(st << 8) | b`, and its
operands are in the domain of its rule. -/
def Obligations.SelectedRowCarriesStateAndByte : Prop :=
  ∀ (s : State) (b : Byte), s.cfg.legal = true →
    tableWord s.cfg (selectRow s b) = some (rxWord s.st b) ∧ (selectRow s b).wf s.cfg = true

/-- R66: "exactly one row applies to every (st, b, state) triple" (of the rows that do not merely delegate). -/
def Obligations.ExactlyOneRowApplies : Prop :=
  ∀ (s : State) (b : Byte), s.cfg.legal = true →
    ∃! i : Instr, isLeafRow i = true ∧ rowByte s.cfg i = some b ∧ exec i s ≠ .refused .notSelected

/-- R66, R90: `CONSUME(b)`, written as the overflow guard and the case on `st`, is the row the decode table
selects. -/
def Obligations.ConsumeRunsTheSelectedRow : Prop :=
  ∀ (s : State) (b : Byte),
    exec (.consume b) s = andThen (exec (selectRow s b) s) fun t => .next { t with answer := .done }

/-! ### WaitStart and the overflow guard -/

/-- R91, R92: WS.SLIDE slides the window; WS.DBL drops one of two markers and changes nothing. -/
def Obligations.WindowSlidesAndDropsDoubledMarker : Prop :=
  ∀ (s : State) (b : Byte), s.st = .waitStart →
    (s.prev ≠ s.cfg.masterStart → exec (.wsSlide b) s = .next { s with prev := b }) ∧
    (s.prev = s.cfg.masterStart → exec .wsDbl s = .next s)

/-- R93: WS.START. -/
def Obligations.MarkerThenOtherByteStartsFrame : Prop :=
  ∀ (s : State) (b : Byte),
    s.st = .waitStart → s.prev = s.cfg.masterStart → b ≠ s.cfg.masterStart →
    ∃ t, exec (.wsStart b) s = .next t ∧
      t = { s with mem := t.mem, cur := 2, st := .waitData, prev := b } ∧
      ∀ i, t.readBuf i =
        if i = 0 then s.cfg.masterStart else if i = 1 then b else s.readBuf i

/-- R121, R194: OVF logs BufferOverflow, flushes all that was captured, and the byte that met the full buffer
slides into the window. The order of the delivery's events, the listener before the broadcasts, is the choice of
assumption 19 (D32, R152). -/
def Obligations.OverflowFlushesAndKeepsTheByte : Prop :=
  ∀ (s : State) (b : Byte), s.cfg.legal = true → s.st ≠ .waitStart → s.cfg.bufCap ≤ s.cur →
    ∃ t, exec (.ovf s.st b) s = .next t ∧
      Flushed s t [.log .bufferOverflow] s.transcript b ∧ ∀ i, t.readBuf i = s.readBuf i

/-! ### WaitData -/

/-- R94: WD.APPEND, before the length byte, at a legal length byte, and inside the frame. -/
def Obligations.DataByteIsAppended : Prop :=
  ∀ (s : State) (b : Byte), s.st = .waitData → s.cur < s.cfg.bufCap →
    (s.cur < 4 ∨ (s.cur = 4 ∧ b.toNat ≤ maxData) ∨ (5 ≤ s.cur ∧ s.cur + 1 < 6 + s.frameLen)) →
    ∃ t, exec (.wdAppend b) s = .next t ∧
      t = { s with mem := t.mem, cur := s.cur + 1 } ∧ BufAppended s t [b]

/-- R95: WD.BADLEN logs MalformedFrame and flushes the five bytes; nothing is transmitted. The order of the
delivery's events, the listener before the broadcasts, is the choice of assumption 19 (D32, R152). -/
def Obligations.ImpossibleLengthIsMalformed : Prop :=
  ∀ (s : State) (b : Byte),
    s.st = .waitData → s.cur < s.cfg.bufCap → s.cur = 4 → 122 < b.toNat →
    ∃ t, exec (.wdBadlen b) s = .next t ∧
      Flushed s t [.log .malformedFrame] (s.transcript ++ [b]) 0 ∧ BufAppended s t [b]

/-- R96, R193: WD.BADSUM logs ChecksumMismatch and flushes the frame; no nak is sent, impersonated address or
not, which is the choice of assumption 17 (C1, D9). The order of the delivery's events, the listener before the
broadcasts, is the choice of assumption 19 (D32, R152). -/
def Obligations.WrongChecksumIsFlushedSilently : Prop :=
  ∀ (s : State) (b : Byte),
    s.st = .waitData → s.cur < s.cfg.bufCap → s.cur = 5 + s.frameLen →
    b ≠ csum s.cfg (s.bufSlice 1 (5 + s.frameLen)) →
    ∃ t, exec (.wdBadsum b) s = .next t ∧
      Flushed s t [.log .checksumMismatch] (s.transcript ++ [b]) 0 ∧ BufAppended s t [b]

/-- R100: WD.POLL.ANS sends the payload, keeps it in the transcript, and waits for the master's ack. -/
def Obligations.ImpersonatedPollIsAnswered : Prop :=
  ∀ (s : State) (b : Byte) (p : List Byte),
    s.FrameEnds b → s.frameAddr ∈ s.ackset → s.frameLen = 0 →
    pollAnswer s s.frameAddr s.frameCmd = .supplied p → p ≠ [] → 6 + p.length ≤ s.cfg.bufCap →
    ∃ t, exec (.wdPollAns b) s = .next t ∧
      t = { s with
            mem := t.mem, cur := 6 + p.length, st := .waitAck,
            req := s.polled.req, provCalls := s.polled.provCalls,
            trace := s.trace ++
              [.dir true, .delay s.cfg.settle, .write p, .flush, .delay s.cfg.settle, .dir false] } ∧
      BufAppended s t (b :: p)

/-- R148: where a poll falls to a provider, the step has no meaning exactly when the provider's answer is longer
than MAX_RESP bytes. The answer is a free value (assumption 8): the statement holds for every answer. -/
def Obligations.OverlongProviderAnswerIsRefused : Prop :=
  ∀ (s : State) (b : Byte) (pid : ProviderId),
    s.FrameEnds b → s.frameAddr ∈ s.ackset → s.frameLen = 0 → s.tokenBound = true →
    (s.entry ⟨s.frameAddr, s.frameCmd⟩).queue = [] →
    (s.entry ⟨s.frameAddr, s.frameCmd⟩).fallback = .provider pid →
    (exec (.consume b) s = .refused .providerOutOfContract ↔
      ∃ p, Config.freeProvider pid s.frameAddr s.frameCmd s.provCalls = some p ∧ 128 < p.length) ∧
    (exec (.wdPollAns b) s = .refused .providerOutOfContract ↔
      ∃ p, Config.freeProvider pid s.frameAddr s.frameCmd s.provCalls = some p ∧ 128 < p.length)

/-- R101, R102: WD.POLL.ACK and WD.DATA.ACK send the block's own ack, append it, and flush; a poll with nothing
to send differs from a data frame only in having asked the token-poll port. The order of the delivery's events,
the listener before the broadcasts, is the choice of assumption 19 (D32, R152). -/
def Obligations.ImpersonatedFrameIsAcked : Prop :=
  ∀ (s : State) (b : Byte),
    s.FrameEnds b → s.frameAddr ∈ s.ackset → s.cur + 2 ≤ s.cfg.bufCap →
    (s.frameLen = 0 →
      pollAnswer s s.frameAddr s.frameCmd = .nothing ∨
        pollAnswer s s.frameAddr s.frameCmd = .supplied [] →
      ∃ t, exec (.wdPollAck b) s = .next t ∧
        Flushed s.polled t (sendEvents s.cfg [s.cfg.ack]) (s.transcript ++ [b, s.cfg.ack]) 0 ∧
        BufAppended s t [b, s.cfg.ack]) ∧
    (0 < s.frameLen →
      ∃ t, exec (.wdDataAck b) s = .next t ∧
        Flushed s t (sendEvents s.cfg [s.cfg.ack]) (s.transcript ++ [b, s.cfg.ack]) 0 ∧
        BufAppended s t [b, s.cfg.ack])

/-- R103, R104: a valid frame for an address outside the acknowledge set is only observed: WD.POLL.OBS waits for
the slave, WD.DATA.OBS for the ack. -/
def Obligations.ForeignFrameIsObserved : Prop :=
  ∀ (s : State) (b : Byte), s.FrameEnds b → s.frameAddr ∉ s.ackset →
    (s.frameLen = 0 →
      ∃ t, exec (.wdPollObs b) s = .next t ∧
        t = { s with mem := t.mem, cur := s.cur + 1, st := .waitStartSlave } ∧
        BufAppended s t [b]) ∧
    (0 < s.frameLen →
      ∃ t, exec (.wdDataObs b) s = .next t ∧
        t = { s with mem := t.mem, cur := s.cur + 1, st := .waitAck } ∧ BufAppended s t [b])

/-- R97, R99: WD.VALID and DISPATCH complete at the last byte of every valid frame whatever the tables hold, and
do what the selected row does; the next state is the one R99 names. -/
def Obligations.ValidFrameIsDispatched : Prop :=
  ∀ (s : State) (b : Byte), s.Inv → s.ProvidersInContract → s.FrameEnds b →
    ∃ t, exec (.wdValid b) s = .next t ∧ exec .dispatch (s.append b) = .next t ∧
      exec (selectRow s b) s = .next t ∧
      t.st =
        (if s.frameAddr ∈ s.ackset then
          if s.frameLen = 0 ∧ pollAnswer s s.frameAddr s.frameCmd ≠ .nothing then .waitAck
          else .waitStart
        else if s.frameLen = 0 then .waitStartSlave
        else .waitAck)

/-! ### WaitStartSlave, WaitDataSlave, and the ack/nak handler -/

/-- R110: WSS.START. -/
def Obligations.SlaveMarkerStartsSlaveFrame : Prop :=
  ∀ s : State, s.st = .waitStartSlave → s.cur < s.cfg.bufCap →
    ∃ t, exec .wssStart s = .next t ∧
      t = { s with mem := t.mem, cur := s.cur + 1, sorg := s.cur, st := .waitDataSlave } ∧
      BufAppended s t [s.cfg.slaveStart]

/-- R112, R113: WDS.APPEND until `declared length + 4` bytes of the slave frame are held, then WDS.DONE; no byte
value and no checksum is looked at. `len` is the slave frame's length byte once `b` is appended. -/
def Obligations.SlaveFrameIsTakenByLength : Prop :=
  ∀ (s : State) (b : Byte), s.st = .waitDataSlave → s.cur < s.cfg.bufCap →
    let rel := s.cur + 1 - s.sorg
    let len := (if s.sorg + 2 = s.cur then b else s.readBuf (s.sorg + 2)).toNat
    (rel < 3 ∨ rel < len + 4 →
      ∃ t, exec (.wdsAppend b) s = .next t ∧
        t = { s with mem := t.mem, cur := s.cur + 1 } ∧ BufAppended s t [b]) ∧
    (3 ≤ rel ∧ len + 4 ≤ rel →
      ∃ t, exec (.wdsDone b) s = .next t ∧
        t = { s with mem := t.mem, cur := s.cur + 1, st := .waitAck } ∧ BufAppended s t [b])

/-- R115 (with R116 to R120): the handler ACKH appends the byte and ends the exchange in every case: an ack or a
nak is the last byte of the transcript, a marker is rolled back out of it and seeds the window, another byte is
logged. WA runs it on every byte in `WaitAck`, WSS.OTHER on every byte but `S` in `WaitStartSlave` (R111, R114).
The order of the delivery's events, the listener before the broadcasts, is the choice of assumption 19 (D32,
R152). -/
def Obligations.AckHandlerEndsTheExchange : Prop :=
  ∀ (s : State) (b : Byte), s.cfg.legal = true → s.cur < s.cfg.bufCap →
    ∃ t, exec (.ackh b) s = .next t ∧
      (if b = s.cfg.ack ∨ b = s.cfg.nak then Flushed s t [] (s.transcript ++ [b]) 0
       else if b = s.cfg.masterStart then Flushed s t [] s.transcript s.cfg.masterStart
       else Flushed s t [.log .unexpectedAckByte] (s.transcript ++ [b]) 0) ∧
      BufAppended s t [b] ∧
      (s.st = .waitAck → exec (.wa b) s = .next t) ∧
      (s.st = .waitStartSlave → b ≠ s.cfg.slaveStart → exec (.wssOther b) s = .next t)

/-- R116, R117, R119, R120: the four AckHandler rows, in `WaitAck` and, through WSS.OTHER, in `WaitStartSlave`.
The order of the delivery's events, the listener before the broadcasts, is the choice of assumption 19 (D32,
R152). -/
def Obligations.AckHandlerRowsComplete : Prop :=
  ∀ s : State, s.cfg.legal = true → s.cur < s.cfg.bufCap →
    s.st = .waitAck ∨ s.st = .waitStartSlave →
    (∃ t, exec .ackhAck s = .next t ∧ Flushed s t [] (s.transcript ++ [s.cfg.ack]) 0 ∧
      BufAppended s t [s.cfg.ack]) ∧
    (∃ t, exec .ackhNak s = .next t ∧ Flushed s t [] (s.transcript ++ [s.cfg.nak]) 0 ∧
      BufAppended s t [s.cfg.nak]) ∧
    (∃ t, exec .ackhMark s = .next t ∧ Flushed s t [] s.transcript s.cfg.masterStart ∧
      BufAppended s t [s.cfg.masterStart]) ∧
    (∀ b, b ≠ s.cfg.ack → b ≠ s.cfg.nak → b ≠ s.cfg.masterStart →
      (s.st = .waitStartSlave → b ≠ s.cfg.slaveStart) →
      ∃ t, exec (.ackhOther b) s = .next t ∧
        Flushed s t [.log .unexpectedAckByte] (s.transcript ++ [b]) 0 ∧ BufAppended s t [b])

/-- R118, R221: COMPLETE delivers the transcript, then makes the session idle with the given window byte; the
buffer's bytes and the tables stay. The order of the delivery's events, the listener before the broadcasts, is
the choice of assumption 19 (D32, R152). -/
def Obligations.CompleteFlushesAndResetsTheSession : Prop :=
  ∀ (s : State) (seed : Byte),
    ∃ t, exec (.complete seed) s = .next t ∧ Flushed s t [] s.transcript seed ∧
      ∀ i, t.readBuf i = s.readBuf i

/-! ### Transmission -/

/-- R130, R131, R132: SENDBYTES (of at least one byte), SENDACK and SENDNAK emit exactly the six events of a
transmission, in order, and write no state. That SENDNAK is an operation at all, and one that no rule calls, is
the decision D36 (assumption 17). -/
def Obligations.TransmissionIsSixEvents : Prop :=
  ∀ (s : State) (p : List Byte),
    (p ≠ [] → exec (.sendbytes p) s = .next { s with trace := s.trace ++
      [.dir true, .delay s.cfg.settle, .write p, .flush, .delay s.cfg.settle, .dir false] }) ∧
    exec .sendack s = .next { s with trace := s.trace ++
      [.dir true, .delay s.cfg.settle, .write [s.cfg.ack], .flush, .delay s.cfg.settle, .dir false] } ∧
    exec .sendnak s = .next { s with trace := s.trace ++
      [.dir true, .delay s.cfg.settle, .write [s.cfg.nak], .flush, .delay s.cfg.settle, .dir false] }

/-- Assumption 26, the model's choice: an operand outside the domain its rule gives is refused, and one inside it
is not (R84, R85, R130; for the wire formats, a length its byte can hold). -/
def Obligations.OperandsOutsideTheirDomainAreRefused : Prop :=
  ∀ (s : State) (a : Addr) (cmd : Byte) (bs : List Byte),
    (exec (.mkmaster a cmd bs) s = .refused .operandOutsideDomain ↔ 122 < bs.length) ∧
    (exec (.mkslave cmd bs) s = .refused .operandOutsideDomain ↔ 255 < bs.length) ∧
    (exec (.mframe a cmd bs) s = .refused .operandOutsideDomain ↔ 255 < bs.length) ∧
    (exec (.sframe cmd bs) s = .refused .operandOutsideDomain ↔ 255 < bs.length) ∧
    (exec (.sendbytes bs) s = .refused .operandOutsideDomain ↔ bs = [])

/-! ### The codec -/

/-- R80, R81, R88: CSUM folds its bytes by exclusive-or and substitutes a result equal to `M`; CSUMOK accepts a
byte exactly when it is that checksum. Both answer their caller (assumption 14) and change nothing else. -/
def Obligations.ChecksumFoldsAndSubstitutes : Prop :=
  ∀ (s : State) (bs : List Byte) (k : Byte),
    ∃ r, exec (.csum bs) s = .next { s with answer := .byte r } ∧
      r = (if bs.foldr (fun x a => x ^^^ a) 0 = s.cfg.masterStart then s.cfg.subst
        else bs.foldr (fun x a => x ^^^ a) 0) ∧
      exec (.csumok bs k) s = .next { s with answer := .bit (decide (k = r)) }

/-- R80, R81, R87: a checksum is never the marker, does not depend on the order of the bytes, and is the same
where the bytes fold to the marker and where they fold to the substitute; a raw marker is never accepted. -/
def Obligations.ChecksumNeverEqualsTheMarker : Prop :=
  ∀ c : Config, c.legal = true →
    (∀ bs, csum c bs ≠ c.masterStart ∧ csumOk c bs c.masterStart = false) ∧
    (∀ xs ys : List Byte, xs.Perm ys → csum c xs = csum c ys) ∧
    (∀ xs ys, xorFold xs = c.masterStart → xorFold ys = c.subst → csum c xs = csum c ys)

/-- R82: MFVALID. -/
def Obligations.MasterFrameValidityIsItsClauses : Prop :=
  ∀ (s : State) (f : List Byte),
    ∃ v, exec (.mfvalid f) s = .next { s with answer := .bit v } ∧
      (v = true ↔
        ∃ (a : Addr) (cmd : Byte) (data : List Byte),
          f = mkMaster s.cfg a cmd data ∧ addrHi a ≠ s.cfg.masterStart ∧ data.length ≤ 122)

/-- R83: SFVALID. -/
def Obligations.SlaveFrameValidityIsItsClauses : Prop :=
  ∀ (s : State) (f : List Byte),
    ∃ v, exec (.sfvalid f) s = .next { s with answer := .bit v } ∧
      (v = true ↔
        ∃ (cmd : Byte) (data : List Byte), f = mkSlave s.cfg cmd data ∧ data.length ≤ 255)

/-- R84, R85: MKMASTER and MKSLAVE, byte by byte. -/
def Obligations.FramesAreBuiltFieldByField : Prop :=
  ∀ (s : State) (a : Addr) (cmd : Byte) (data : List Byte),
    (data.length ≤ 122 →
      ∃ k, exec (.mkmaster a cmd data) s = .next { s with
          answer := .bytes ([s.cfg.masterStart, addrHi a, addrLo a, cmd,
            BitVec.ofNat 8 data.length] ++ data ++ [k]) } ∧
        k = csum s.cfg ([addrHi a, addrLo a, cmd, BitVec.ofNat 8 data.length] ++ data)) ∧
    (data.length ≤ 255 →
      ∃ k, exec (.mkslave cmd data) s = .next { s with
          answer := .bytes ([s.cfg.slaveStart, cmd, BitVec.ofNat 8 data.length] ++ data ++ [k]) } ∧
        k = csum s.cfg ((if s.cfg.slaveCsumIncludesStart then [s.cfg.slaveStart] else []) ++
          [cmd, BitVec.ofNat 8 data.length] ++ data))

/-- R155: DEDUP answers the bytes with each pair of markers, taken left to right, made one; it undoes the
doubling of every marker, makes a run of k markers ⌈k/2⌉, and passes every other byte. -/
def Obligations.DedupCollapsesMarkerPairs : Prop :=
  ∀ s : State, ∃ d : List Byte → List Byte,
    (∀ p, exec (.dedup p) s = .next { s with answer := .bytes (d p) }) ∧
    (∀ p, d (stuff s.cfg p) = p) ∧
    (∀ k, d (List.replicate k s.cfg.masterStart) =
      List.replicate ((k + 1) / 2) s.cfg.masterStart) ∧
    (∀ p, d (s.cfg.masterStart :: s.cfg.masterStart :: p) = s.cfg.masterStart :: d p) ∧
    (∀ x p, x ≠ s.cfg.masterStart →
      d (x :: p) = x :: d p ∧ d (s.cfg.masterStart :: x :: p) = s.cfg.masterStart :: x :: d p)

/-! ### The fan-out -/

/-- R153, R154: LSNDISPATCH calls the listener of (address, command) with the de-duplicated data bytes exactly
where the transcript begins with a whole valid master frame and the key has a listener; at most one call. -/
def Obligations.ListenerHearsValidFramesOnly : Prop :=
  ∀ (s : State) (tr : List Byte),
    ∃ es, exec (.lsndispatch tr) s = .next { s with trace := s.trace ++ es } ∧
      (∀ (a : Addr) (cmd : Byte) (data rest : List Byte),
        tr = mkMaster s.cfg a cmd data ++ rest → addrHi a ≠ s.cfg.masterStart →
        data.length ≤ 122 →
        es = match tableGet s.lsn ⟨a, cmd⟩ with
          | some lid => [.listener lid a cmd (dedupBytes s.cfg data)]
          | none => []) ∧
      ((∀ f rest, tr = f ++ rest → masterFrameValid s.cfg f = false) → es = [])

/-- R152, R156: BROADCAST sends the raw transcript once to each target, in an order nothing is known of; FANOUT
is LSNDISPATCH and then BROADCAST, an order that is the choice of assumption 19 (D32, R152). -/
def Obligations.BroadcastReachesEveryTargetOnce : Prop :=
  ∀ (s : State) (tr : List Byte),
    (∃ (order : List Endpoint) (n : Nat), order.Perm (tableKeys s.tgt) ∧
      exec (.broadcast tr) s = .next { s with
        trace := s.trace ++ order.map fun e => Event.broadcast e tr, picks := n }) ∧
    ∃ u t, exec (.lsndispatch tr) s = .next u ∧ exec (.broadcast tr) u = .next t ∧
      exec (.fanout tr) s = .next t

/-! ### The multiplexer's commands -/

/-- R141: SETACK. -/
def Obligations.SetackEditsTheAcknowledgeSet : Prop :=
  ∀ (s : State) (a : Addr) (en : Bool),
    ∃ t, exec (.setack a en) s = .next t ∧
      t = { s with ackset := t.ackset, answer := .done } ∧
      ∀ x, x ∈ t.ackset ↔ if en then x = a ∨ x ∈ s.ackset else x ≠ a ∧ x ∈ s.ackset

/-- R142: ENQ refuses an empty or over-long payload, state unchanged; else it drops the oldest entry of a full
queue and pushes at the back. -/
def Obligations.EnqPushesAndDropsTheOldest : Prop :=
  ∀ (s : State) (a : Addr) (tok : Byte) (p : List Byte),
    (p.length = 0 ∨ 128 < p.length →
      exec (.enq a tok p) s = .next { s with answer := .refused }) ∧
    (1 ≤ p.length → p.length ≤ 128 →
      ∃ t, exec (.enq a tok p) s = .next t ∧ t = { s with req := t.req, answer := .done } ∧
        ∀ k, t.entry k =
          if k = ⟨a, tok⟩ then
            { s.entry k with queue :=
                (if s.cfg.queueDepth ≤ (s.entry k).queue.length then (s.entry k).queue.tail
                 else (s.entry k).queue) ++ [p] }
          else s.entry k)

/-- R143: after any number of ENQ on one key, the queue holds the last QUEUE_DEPTH of what it held and what was
accepted, in order. -/
def Obligations.QueueKeepsTheMostRecent : Prop :=
  ∀ (s : State) (a : Addr) (tok : Byte) (ps : List (List Byte)),
    1 ≤ s.cfg.queueDepth → (s.entry ⟨a, tok⟩).queue.length ≤ s.cfg.queueDepth →
    (∀ p ∈ ps, 1 ≤ p.length ∧ p.length ≤ 128) →
    ∃ t, runAll (ps.map (.enq a tok)) s = .next t ∧
      (t.entry ⟨a, tok⟩).queue =
        ((s.entry ⟨a, tok⟩).queue ++ ps).drop
          ((s.entry ⟨a, tok⟩).queue.length + ps.length - s.cfg.queueDepth) ∧
      ∀ k, k ≠ ⟨a, tok⟩ → t.entry k = s.entry k

/-- R144, R145: SETPROV and SETCONST replace the fallback of one key and leave its queue; SETCONST refuses what
ENQ refuses. -/
def Obligations.FallbackIsReplaced : Prop :=
  ∀ (s : State) (a : Addr) (tok : Byte) (pid : ProviderId) (p : List Byte),
    (∃ t, exec (.setprov a tok pid) s = .next t ∧ t = { s with req := t.req, answer := .done } ∧
      ∀ k, t.entry k =
        if k = ⟨a, tok⟩ then { s.entry k with fallback := .provider pid } else s.entry k) ∧
    (p.length = 0 ∨ 128 < p.length →
      exec (.setconst a tok p) s = .next { s with answer := .refused }) ∧
    (1 ≤ p.length → p.length ≤ 128 →
      ∃ t, exec (.setconst a tok p) s = .next t ∧
        t = { s with req := t.req, answer := .done } ∧
        ∀ k, t.entry k =
          if k = ⟨a, tok⟩ then { s.entry k with fallback := .const p } else s.entry k)

/-- R146, R147: TOKENPOLL takes the front of the queue, else the fallback, else nothing; a constant is not
consumed; a provider's empty answer is nothing, an answer above MAX_RESP has no meaning (R148). -/
def Obligations.TokenPollTriesQueueThenFallback : Prop :=
  ∀ (s : State) (a : Addr) (c : Byte), s.tokenBound = true →
    (∀ p q, (s.entry ⟨a, c⟩).queue = p :: q →
      ∃ t, exec (.tokenpoll a c) s = .next t ∧
        t = { s with req := t.req, answer := .optBytes (some p) } ∧
        ∀ k, t.entry k = if k = ⟨a, c⟩ then { s.entry k with queue := q } else s.entry k) ∧
    ((s.entry ⟨a, c⟩).queue = [] →
      ((s.entry ⟨a, c⟩).fallback = .none →
        exec (.tokenpoll a c) s = .next { s with answer := .optBytes none }) ∧
      (∀ p, (s.entry ⟨a, c⟩).fallback = .const p →
        exec (.tokenpoll a c) s = .next { s with answer := .optBytes (some p) }) ∧
      (∀ pid, (s.entry ⟨a, c⟩).fallback = .provider pid →
        exec (.tokenpoll a c) s =
          match Config.freeProvider pid a c s.provCalls with
          | none => .next { s with provCalls := s.provCalls + 1, answer := .optBytes none }
          | some p =>
            if 128 < p.length then .refused .providerOutOfContract
            else .next { s with
              provCalls := s.provCalls + 1,
              answer := .optBytes (if p.length = 0 then none else some p) }))

/-- R150: ADDLSN replaces the listener of one key. -/
def Obligations.AddlsnReplacesTheListener : Prop :=
  ∀ (s : State) (a : Addr) (c : Byte) (lid : ListenerId),
    ∃ t, exec (.addlsn a c lid) s = .next t ∧ t = { s with lsn := t.lsn, answer := .done } ∧
      ∀ k, tableGet t.lsn k = if k = ⟨a, c⟩ then some lid else tableGet s.lsn k

/-- R160, R161, R162: REFRESH sets one target's last-seen time; SWEEP refreshes the static targets and removes
every other target idle for more than TARGET_TIMEOUT, in truncated subtraction. The table is a finite map
(its canonical form is part of the invariant). -/
def Obligations.TargetsAreRefreshedAndSwept : Prop :=
  ∀ (s : State) (e : Endpoint) (now : Nat),
    (∃ t, exec (.refresh e now) s = .next t ∧ t = { s with tgt := t.tgt, answer := .done } ∧
      ∀ x, tableGet t.tgt x = if x = e then some now else tableGet s.tgt x) ∧
    (TableWf id s.tgt →
      ∃ t, exec (.sweep now) s = .next t ∧ t = { s with tgt := t.tgt, answer := .done } ∧
        ∀ x, tableGet t.tgt x =
          if x ∈ s.cfg.staticTargets then some now
          else match tableGet s.tgt x with
            | some seen => if s.cfg.targetTimeout < now - seen then none else some seen
            | none => none)

/-! ### The host interface and the bus -/

/-- R173 to R176: CONNECT sets the bit, DISCONNECT clears it, CONNECTED reads it, INPROG tells whether the parser
is not idle or a byte waits; nothing else changes. -/
def Obligations.ConnectionAndProgressBits : Prop :=
  ∀ s : State,
    exec .connect s = .next { s with connected := true, answer := .done } ∧
    exec .disconnect s = .next { s with connected := false, answer := .done } ∧
    exec .connected s = .next { s with answer := .bit s.connected } ∧
    exec .inprog s = .next { s with answer := .bit (decide (s.st ≠ .waitStart ∨ s.rxq ≠ [])) }

/-- R177, R178 (assumption 11): ONFRAME and ONTOKEN leave their port bound to the multiplexer, whichever callback
is named. With the frame-received port unbound a flush is only seen as its event; with the token-poll port
unbound a poll gets nothing (R105). -/
def Obligations.PortsAreBoundToTheMultiplexer : Prop :=
  ∀ (s : State) (cb : CallbackId),
    exec (.onframe cb) s = .next { s with frameBound := true, answer := .done } ∧
    exec (.ontoken cb) s = .next { s with tokenBound := true, answer := .done } ∧
    (s.frameBound = false → ∀ seed, exec (.complete seed) s = .next { s with
      st := .waitStart, cur := 0, sorg := 0, prev := seed,
      trace := s.trace ++ [.frameReceived s.transcript] }) ∧
    (s.tokenBound = false → ∀ a c,
      exec (.tokenpoll a c) s = .next { s with answer := .optBytes none })

/-- R90, R171: CONSUME completes for every byte in every state that meets the invariant, connected or not, where
the registered providers keep their contract; it answers no value and touches only what the bus may (R202). -/
def Obligations.ConsumeIsTotal : Prop :=
  ∀ (s : State) (b : Byte), s.Inv → s.ProvidersInContract →
    ∃ t, exec (.consume b) s = .next t ∧
      t = { s with
            st := t.st, mem := t.mem, cur := t.cur, sorg := t.sorg, prev := t.prev, req := t.req,
            trace := t.trace, provCalls := t.provCalls, picks := t.picks, answer := .done }

/-- R172, D24: LOOP does nothing while `connected` is 0; else it is the CONSUME of every waiting byte, one after
the other, and leaves none waiting. -/
def Obligations.LoopIsConsumeOfEveryWaitingByte : Prop :=
  ∀ s : State,
    (s.connected = false → exec .loop s = .next { s with answer := .done }) ∧
    (s.connected = true → exec .loop s =
      andThen (runAll (s.rxq.map .consume) { s with rxq := [] }) fun t =>
        .next { t with answer := .done }) ∧
    (s.Inv → s.ProvidersInContract → s.connected = true →
      ∃ t, exec .loop s = .next t ∧ t.rxq = [] ∧ t.connected = true ∧ t.answer = .done ∧
        t.ackset = s.ackset ∧ t.lsn = s.lsn ∧ t.tgt = s.tgt ∧ t.inputs = s.inputs)

/-- R60 to R63 (assumption 13): the bytes of a wire format arrive and wait in the receive stream, in the layout
of the format, high byte of the address first (R41); nothing else changes. -/
def Obligations.WireFormatsArriveByteByByte : Prop :=
  ∀ (s : State) (a : Addr) (cmd : Byte) (data : List Byte), data.length ≤ 255 →
    (∃ k, exec (.mframe a cmd data) s = .next { s with rxq := s.rxq ++
        ([s.cfg.masterStart, BitVec.ofNat 8 (a.toNat / 256), BitVec.ofNat 8 a.toNat, cmd,
          BitVec.ofNat 8 data.length] ++ data ++ [k]) } ∧
      k = csum s.cfg ([BitVec.ofNat 8 (a.toNat / 256), BitVec.ofNat 8 a.toNat, cmd,
        BitVec.ofNat 8 data.length] ++ data)) ∧
    (∃ k, exec (.sframe cmd data) s = .next { s with rxq := s.rxq ++
        ([s.cfg.slaveStart, cmd, BitVec.ofNat 8 data.length] ++ data ++ [k]) } ∧
      k = csum s.cfg ((if s.cfg.slaveCsumIncludesStart then [s.cfg.slaveStart] else []) ++
        [cmd, BitVec.ofNat 8 data.length] ++ data)) ∧
    exec .ackbyte s = .next { s with rxq := s.rxq ++ [s.cfg.ack] } ∧
    exec .nakbyte s = .next { s with rxq := s.rxq ++ [s.cfg.nak] }

/-! ### The machine as a whole -/

/-- R31, R220: the values after reset that the spec gives, under every configuration. `buf` and the last-seen
values of the static targets are unspecified there, and nothing is said of them here. -/
def Obligations.ResetLeavesTheStatedValues : Prop :=
  ∀ c : Config,
    (State.resetWith c).st = .waitStart ∧ (State.resetWith c).cur = 0 ∧
    (State.resetWith c).sorg = 0 ∧ (State.resetWith c).prev = 0 ∧
    (State.resetWith c).connected = false ∧ (State.resetWith c).ackset = [] ∧
    (State.resetWith c).req = [] ∧ (State.resetWith c).lsn = [] ∧
    (State.resetWith c).trace = [] ∧
    (∀ e, e ∈ tableKeys (State.resetWith c).tgt ↔ e ∈ c.staticTargets) ∧
    (State.resetWith c).cfg = c ∧ State.reset = State.resetWith Config.default

/-- R26: the invariant holds at reset, under every legal configuration. -/
def Obligations.ResetMeetsTheInvariant : Prop :=
  State.reset.Inv ∧ ∀ c : Config, c.legal = true → (State.resetWith c).Inv

/-- R26: every step keeps the invariant, from every state that meets it. -/
def Obligations.EveryStepKeepsTheInvariant : Prop :=
  ∀ s t : State, s.Inv → step s = .next t → t.Inv

/-- R40: every operation, the internal ones too, keeps memory in its canonical form. -/
def Obligations.EveryOperationKeepsMemoryCanonical : Prop :=
  ∀ (i : Instr) (s t : State), Memory.wf s.mem → exec i s = .next t → Memory.wf t.mem

/-- R24: no operation and no step changes the configuration record. -/
def Obligations.ConfigurationNeverChanges : Prop :=
  (∀ (i : Instr) (s t : State), exec i s = .next t → t.cfg = s.cfg) ∧
  ∀ s t : State, step s = .next t → t.cfg = s.cfg

/-- R12: no step depends on a byte of `buf` at or above the cursor: two states that differ only there stop alike
or go on to states that differ only there. The value such a byte reads as (assumption 4) therefore never
matters. -/
def Obligations.StaleBytesAreNeverRead : Prop :=
  ∀ s t : State, StaleEq s t → OutcomeRel StaleEq (step s) (step t)

/-- R202: a received byte cannot change the acknowledge set, the listeners, the targets, `connected`, the port
bindings or a fallback, and takes at most the front of the queue of one key. -/
def Obligations.BusCannotTouchTheHostsTables : Prop :=
  ∀ (s t : State) (b : Byte), exec (.consume b) s = .next t →
    t.ackset = s.ackset ∧ t.lsn = s.lsn ∧ t.tgt = s.tgt ∧ t.connected = s.connected ∧
    t.frameBound = s.frameBound ∧ t.tokenBound = s.tokenBound ∧ t.rxq = s.rxq ∧
    ∃ k₀, ∀ k, (t.entry k).fallback = (s.entry k).fallback ∧
      ((t.entry k).queue = (s.entry k).queue ∨
        (k = k₀ ∧ ∃ p, (s.entry k).queue = p :: (t.entry k).queue))

/-- R125, R118: the parser moves along the edges of the transition graph only, and every move from another state
into `WaitStart` emits exactly one `FrameReceived`, other moves none. -/
def Obligations.ParserFollowsTheTransitionGraph : Prop :=
  ∀ (s t : State) (b : Byte), s.cfg.legal = true → exec (.consume b) s = .next t →
    (if s.overflowing then t.st = .waitStart else graphEdge s.st t.st = true) ∧
    ∃ es, t.trace = s.trace ++ es ∧
      (es.filter Event.isFrameReceived).length =
        if s.st ≠ .waitStart ∧ t.st = .waitStart then 1 else 0

/-- R134: a received byte makes the block transmit only when it is the last byte of a valid master frame whose
address is in the acknowledge set, and then it is one transmission of six events. It rests on the choice of
assumption 17 (C1, D9): §7 of the source would send a nak on a wrong checksum for an impersonated address, and a
device that does so breaks this statement. -/
def Obligations.TransmitsOnlyWhenImpersonating : Prop :=
  ∀ (s t : State) (b : Byte), s.Inv → exec (.consume b) s = .next t →
    ∃ es, t.trace = s.trace ++ es ∧
      (es.filter Event.isTransport = [] ∨
        (s.FrameEnds b ∧ s.frameAddr ∈ s.ackset ∧
          ∃ p, es.filter Event.isTransport = sendEvents s.cfg p))

/-- R191, R198: which byte raises which error, and at most one error per byte. -/
def Obligations.ErrorsAreRaisedExactlyWhereStated : Prop :=
  ∀ (s t : State) (b : Byte), s.Inv → exec (.consume b) s = .next t →
    ∃ es, t.trace = s.trace ++ es ∧ (es.filter Event.isLog).length ≤ 1 ∧
      (.log .malformedFrame ∈ es ↔ s.st = .waitData ∧ s.cur = 4 ∧ 122 < b.toNat) ∧
      (.log .checksumMismatch ∈ es ↔
        s.st = .waitData ∧ 5 ≤ s.cur ∧ s.cur = 5 + s.frameLen ∧
          b ≠ csum s.cfg (s.bufSlice 1 (5 + s.frameLen))) ∧
      (.log .bufferOverflow ∈ es ↔ s.st ≠ .waitStart ∧ s.cur = s.cfg.bufCap) ∧
      (.log .unexpectedAckByte ∈ es ↔
        s.cur < s.cfg.bufCap ∧
          (s.st = .waitAck ∨ (s.st = .waitStartSlave ∧ b ≠ s.cfg.slaveStart)) ∧
          b ≠ s.cfg.ack ∧ b ≠ s.cfg.nak ∧ b ≠ s.cfg.masterStart)

/-- R68: every delivered transcript has at least five bytes, fits the buffer, and begins with the marker followed
by another byte. -/
def Obligations.TranscriptsBeginWithAFrameStart : Prop :=
  ∀ (s t : State) (b : Byte), s.Inv → exec (.consume b) s = .next t →
    ∃ es, t.trace = s.trace ++ es ∧
      ∀ tr, .frameReceived tr ∈ es →
        5 ≤ tr.length ∧ tr.length ≤ s.cfg.bufCap ∧
        byteAt tr 0 = s.cfg.masterStart ∧ byteAt tr 1 ≠ s.cfg.masterStart

/-- R122: from every state that meets the invariant, some prefix of any BUF_CAP + 1 further bytes brings the
parser to `WaitStart`. -/
def Obligations.ParserReturnsToIdle : Prop :=
  ∀ (s : State) (bs : List Byte), s.Inv → s.ProvidersInContract →
    bs.length = s.cfg.bufCap + 1 →
    ∃ k t, k ≤ bs.length ∧ feed (bs.take k) s = .next t ∧ t.st = .waitStart

/-- R106: every valid master frame, fed byte by byte to an idle parser with no marker in its window, is held whole
in the buffer when its last byte dispatches it, and nothing has been emitted before. -/
def Obligations.ValidFrameReachesDispatch : Prop :=
  ∀ (s : State) (a : Addr) (cmd : Byte) (data : List Byte),
    s.cfg.legal = true → s.st = .waitStart → s.cur = 0 → s.prev ≠ s.cfg.masterStart →
    addrHi a ≠ s.cfg.masterStart → data.length ≤ 122 →
    ∃ u, feed (mkMaster s.cfg a cmd data) s = exec .dispatch u ∧
      u = { s with mem := u.mem, st := .waitData, cur := 6 + data.length, prev := addrHi a } ∧
      u.transcript = mkMaster s.cfg a cmd data ∧
      u.frameAddr = a ∧ u.frameCmd = cmd ∧ u.frameLen = data.length

/-- R124, R113: the passive triple: a poll to an address outside the acknowledge set, a slave frame of the right
length with any checksum byte `k`, and an ack are delivered once, whole, as one transcript, and nothing is
transmitted or logged. The order of the delivery's events, the listener before the broadcasts, is the choice of
assumption 19 (D32, R152). -/
def Obligations.PassiveTripleIsDeliveredOnce : Prop :=
  ∀ (s : State) (a : Addr) (cmd sc k : Byte) (data : List Byte),
    s.cfg.legal = true → s.st = .waitStart → s.cur = 0 → s.prev ≠ s.cfg.masterStart →
    addrHi a ≠ s.cfg.masterStart → a ∉ s.ackset →
    data.length ≤ 255 → 11 + data.length ≤ s.cfg.bufCap →
    ∃ t, feed (mkMaster s.cfg a cmd [] ++
          ([s.cfg.slaveStart, sc, BitVec.ofNat 8 data.length] ++ data ++ [k]) ++ [s.cfg.ack]) s =
        .next t ∧
      Flushed s t []
        (mkMaster s.cfg a cmd [] ++
          ([s.cfg.slaveStart, sc, BitVec.ofNat 8 data.length] ++ data ++ [k]) ++ [s.cfg.ack]) 0
end

