-- ==== Sys2Proof/Laws/State.lean ====
section
/-! SUPPORT. What each named update of the state does to each field: one lemma per field per update, so that no
later proof unfolds a record update. -/

namespace Sys2Proof.Machine

variable (s : State)

@[simp] theorem emit_cfg (es : List Event) : (s.emit es).cfg = s.cfg := rfl
@[simp] theorem emit_st (es : List Event) : (s.emit es).st = s.st := rfl
@[simp] theorem emit_mem (es : List Event) : (s.emit es).mem = s.mem := rfl
@[simp] theorem emit_cur (es : List Event) : (s.emit es).cur = s.cur := rfl
@[simp] theorem emit_sorg (es : List Event) : (s.emit es).sorg = s.sorg := rfl
@[simp] theorem emit_prev (es : List Event) : (s.emit es).prev = s.prev := rfl
@[simp] theorem emit_connected (es : List Event) : (s.emit es).connected = s.connected := rfl
@[simp] theorem emit_frameBound (es : List Event) : (s.emit es).frameBound = s.frameBound := rfl
@[simp] theorem emit_tokenBound (es : List Event) : (s.emit es).tokenBound = s.tokenBound := rfl
@[simp] theorem emit_ackset (es : List Event) : (s.emit es).ackset = s.ackset := rfl
@[simp] theorem emit_req (es : List Event) : (s.emit es).req = s.req := rfl
@[simp] theorem emit_lsn (es : List Event) : (s.emit es).lsn = s.lsn := rfl
@[simp] theorem emit_tgt (es : List Event) : (s.emit es).tgt = s.tgt := rfl
@[simp] theorem emit_rxq (es : List Event) : (s.emit es).rxq = s.rxq := rfl
@[simp] theorem emit_trace (es : List Event) : (s.emit es).trace = s.trace ++ es := rfl
@[simp] theorem emit_answer (es : List Event) : (s.emit es).answer = s.answer := rfl
@[simp] theorem emit_inputs (es : List Event) : (s.emit es).inputs = s.inputs := rfl
@[simp] theorem emit_provCalls (es : List Event) : (s.emit es).provCalls = s.provCalls := rfl
@[simp] theorem emit_picks (es : List Event) : (s.emit es).picks = s.picks := rfl

@[simp] theorem reply_cfg (v : Answer) : (s.reply v).cfg = s.cfg := rfl
@[simp] theorem reply_st (v : Answer) : (s.reply v).st = s.st := rfl
@[simp] theorem reply_mem (v : Answer) : (s.reply v).mem = s.mem := rfl
@[simp] theorem reply_cur (v : Answer) : (s.reply v).cur = s.cur := rfl
@[simp] theorem reply_sorg (v : Answer) : (s.reply v).sorg = s.sorg := rfl
@[simp] theorem reply_prev (v : Answer) : (s.reply v).prev = s.prev := rfl
@[simp] theorem reply_connected (v : Answer) : (s.reply v).connected = s.connected := rfl
@[simp] theorem reply_frameBound (v : Answer) : (s.reply v).frameBound = s.frameBound := rfl
@[simp] theorem reply_tokenBound (v : Answer) : (s.reply v).tokenBound = s.tokenBound := rfl
@[simp] theorem reply_ackset (v : Answer) : (s.reply v).ackset = s.ackset := rfl
@[simp] theorem reply_req (v : Answer) : (s.reply v).req = s.req := rfl
@[simp] theorem reply_lsn (v : Answer) : (s.reply v).lsn = s.lsn := rfl
@[simp] theorem reply_tgt (v : Answer) : (s.reply v).tgt = s.tgt := rfl
@[simp] theorem reply_rxq (v : Answer) : (s.reply v).rxq = s.rxq := rfl
@[simp] theorem reply_trace (v : Answer) : (s.reply v).trace = s.trace := rfl
@[simp] theorem reply_answer (v : Answer) : (s.reply v).answer = v := rfl
@[simp] theorem reply_inputs (v : Answer) : (s.reply v).inputs = s.inputs := rfl
@[simp] theorem reply_provCalls (v : Answer) : (s.reply v).provCalls = s.provCalls := rfl
@[simp] theorem reply_picks (v : Answer) : (s.reply v).picks = s.picks := rfl

@[simp] theorem append_cfg (b : Byte) : (s.append b).cfg = s.cfg := rfl
@[simp] theorem append_st (b : Byte) : (s.append b).st = s.st := rfl
@[simp] theorem append_mem (b : Byte) : (s.append b).mem = Memory.write s.mem s.cur b := rfl
@[simp] theorem append_cur (b : Byte) : (s.append b).cur = s.cur + 1 := rfl
@[simp] theorem append_sorg (b : Byte) : (s.append b).sorg = s.sorg := rfl
@[simp] theorem append_prev (b : Byte) : (s.append b).prev = s.prev := rfl
@[simp] theorem append_connected (b : Byte) : (s.append b).connected = s.connected := rfl
@[simp] theorem append_frameBound (b : Byte) : (s.append b).frameBound = s.frameBound := rfl
@[simp] theorem append_tokenBound (b : Byte) : (s.append b).tokenBound = s.tokenBound := rfl
@[simp] theorem append_ackset (b : Byte) : (s.append b).ackset = s.ackset := rfl
@[simp] theorem append_req (b : Byte) : (s.append b).req = s.req := rfl
@[simp] theorem append_lsn (b : Byte) : (s.append b).lsn = s.lsn := rfl
@[simp] theorem append_tgt (b : Byte) : (s.append b).tgt = s.tgt := rfl
@[simp] theorem append_rxq (b : Byte) : (s.append b).rxq = s.rxq := rfl
@[simp] theorem append_trace (b : Byte) : (s.append b).trace = s.trace := rfl
@[simp] theorem append_answer (b : Byte) : (s.append b).answer = s.answer := rfl
@[simp] theorem append_inputs (b : Byte) : (s.append b).inputs = s.inputs := rfl
@[simp] theorem append_provCalls (b : Byte) : (s.append b).provCalls = s.provCalls := rfl
@[simp] theorem append_picks (b : Byte) : (s.append b).picks = s.picks := rfl

@[simp] theorem writeBuf_cfg (i : Nat) (b : Byte) : (s.writeBuf i b).cfg = s.cfg := rfl
@[simp] theorem writeBuf_st (i : Nat) (b : Byte) : (s.writeBuf i b).st = s.st := rfl
@[simp] theorem writeBuf_mem (i : Nat) (b : Byte) : (s.writeBuf i b).mem = Memory.write s.mem i b := rfl
@[simp] theorem writeBuf_cur (i : Nat) (b : Byte) : (s.writeBuf i b).cur = s.cur := rfl
@[simp] theorem writeBuf_sorg (i : Nat) (b : Byte) : (s.writeBuf i b).sorg = s.sorg := rfl
@[simp] theorem writeBuf_prev (i : Nat) (b : Byte) : (s.writeBuf i b).prev = s.prev := rfl
@[simp] theorem writeBuf_connected (i : Nat) (b : Byte) : (s.writeBuf i b).connected = s.connected := rfl
@[simp] theorem writeBuf_frameBound (i : Nat) (b : Byte) : (s.writeBuf i b).frameBound = s.frameBound := rfl
@[simp] theorem writeBuf_tokenBound (i : Nat) (b : Byte) : (s.writeBuf i b).tokenBound = s.tokenBound := rfl
@[simp] theorem writeBuf_ackset (i : Nat) (b : Byte) : (s.writeBuf i b).ackset = s.ackset := rfl
@[simp] theorem writeBuf_req (i : Nat) (b : Byte) : (s.writeBuf i b).req = s.req := rfl
@[simp] theorem writeBuf_lsn (i : Nat) (b : Byte) : (s.writeBuf i b).lsn = s.lsn := rfl
@[simp] theorem writeBuf_tgt (i : Nat) (b : Byte) : (s.writeBuf i b).tgt = s.tgt := rfl
@[simp] theorem writeBuf_rxq (i : Nat) (b : Byte) : (s.writeBuf i b).rxq = s.rxq := rfl
@[simp] theorem writeBuf_trace (i : Nat) (b : Byte) : (s.writeBuf i b).trace = s.trace := rfl
@[simp] theorem writeBuf_answer (i : Nat) (b : Byte) : (s.writeBuf i b).answer = s.answer := rfl
@[simp] theorem writeBuf_inputs (i : Nat) (b : Byte) : (s.writeBuf i b).inputs = s.inputs := rfl
@[simp] theorem writeBuf_provCalls (i : Nat) (b : Byte) : (s.writeBuf i b).provCalls = s.provCalls := rfl
@[simp] theorem writeBuf_picks (i : Nat) (b : Byte) : (s.writeBuf i b).picks = s.picks := rfl

@[simp] theorem setEntry_cfg (k : Key) (e : ReqEntry) : (s.setEntry k e).cfg = s.cfg := rfl
@[simp] theorem setEntry_st (k : Key) (e : ReqEntry) : (s.setEntry k e).st = s.st := rfl
@[simp] theorem setEntry_mem (k : Key) (e : ReqEntry) : (s.setEntry k e).mem = s.mem := rfl
@[simp] theorem setEntry_cur (k : Key) (e : ReqEntry) : (s.setEntry k e).cur = s.cur := rfl
@[simp] theorem setEntry_sorg (k : Key) (e : ReqEntry) : (s.setEntry k e).sorg = s.sorg := rfl
@[simp] theorem setEntry_prev (k : Key) (e : ReqEntry) : (s.setEntry k e).prev = s.prev := rfl
@[simp] theorem setEntry_connected (k : Key) (e : ReqEntry) : (s.setEntry k e).connected = s.connected := rfl
@[simp] theorem setEntry_frameBound (k : Key) (e : ReqEntry) : (s.setEntry k e).frameBound = s.frameBound := rfl
@[simp] theorem setEntry_tokenBound (k : Key) (e : ReqEntry) : (s.setEntry k e).tokenBound = s.tokenBound := rfl
@[simp] theorem setEntry_ackset (k : Key) (e : ReqEntry) : (s.setEntry k e).ackset = s.ackset := rfl
@[simp] theorem setEntry_lsn (k : Key) (e : ReqEntry) : (s.setEntry k e).lsn = s.lsn := rfl
@[simp] theorem setEntry_tgt (k : Key) (e : ReqEntry) : (s.setEntry k e).tgt = s.tgt := rfl
@[simp] theorem setEntry_rxq (k : Key) (e : ReqEntry) : (s.setEntry k e).rxq = s.rxq := rfl
@[simp] theorem setEntry_trace (k : Key) (e : ReqEntry) : (s.setEntry k e).trace = s.trace := rfl
@[simp] theorem setEntry_answer (k : Key) (e : ReqEntry) : (s.setEntry k e).answer = s.answer := rfl
@[simp] theorem setEntry_inputs (k : Key) (e : ReqEntry) : (s.setEntry k e).inputs = s.inputs := rfl
@[simp] theorem setEntry_provCalls (k : Key) (e : ReqEntry) : (s.setEntry k e).provCalls = s.provCalls := rfl
@[simp] theorem setEntry_picks (k : Key) (e : ReqEntry) : (s.setEntry k e).picks = s.picks := rfl

@[simp] theorem setListener_cfg (k : Key) (l : ListenerId) : (s.setListener k l).cfg = s.cfg := rfl
@[simp] theorem setListener_st (k : Key) (l : ListenerId) : (s.setListener k l).st = s.st := rfl
@[simp] theorem setListener_mem (k : Key) (l : ListenerId) : (s.setListener k l).mem = s.mem := rfl
@[simp] theorem setListener_cur (k : Key) (l : ListenerId) : (s.setListener k l).cur = s.cur := rfl
@[simp] theorem setListener_sorg (k : Key) (l : ListenerId) : (s.setListener k l).sorg = s.sorg := rfl
@[simp] theorem setListener_prev (k : Key) (l : ListenerId) : (s.setListener k l).prev = s.prev := rfl
@[simp] theorem setListener_connected (k : Key) (l : ListenerId) : (s.setListener k l).connected = s.connected := rfl
@[simp] theorem setListener_frameBound (k : Key) (l : ListenerId) : (s.setListener k l).frameBound = s.frameBound := rfl
@[simp] theorem setListener_tokenBound (k : Key) (l : ListenerId) : (s.setListener k l).tokenBound = s.tokenBound := rfl
@[simp] theorem setListener_ackset (k : Key) (l : ListenerId) : (s.setListener k l).ackset = s.ackset := rfl
@[simp] theorem setListener_req (k : Key) (l : ListenerId) : (s.setListener k l).req = s.req := rfl
@[simp] theorem setListener_lsn (k : Key) (l : ListenerId) : (s.setListener k l).lsn = tableSet keyCode s.lsn k l := rfl
@[simp] theorem setListener_tgt (k : Key) (l : ListenerId) : (s.setListener k l).tgt = s.tgt := rfl
@[simp] theorem setListener_rxq (k : Key) (l : ListenerId) : (s.setListener k l).rxq = s.rxq := rfl
@[simp] theorem setListener_trace (k : Key) (l : ListenerId) : (s.setListener k l).trace = s.trace := rfl
@[simp] theorem setListener_answer (k : Key) (l : ListenerId) : (s.setListener k l).answer = s.answer := rfl
@[simp] theorem setListener_inputs (k : Key) (l : ListenerId) : (s.setListener k l).inputs = s.inputs := rfl
@[simp] theorem setListener_provCalls (k : Key) (l : ListenerId) : (s.setListener k l).provCalls = s.provCalls := rfl
@[simp] theorem setListener_picks (k : Key) (l : ListenerId) : (s.setListener k l).picks = s.picks := rfl

@[simp] theorem setTarget_cfg (e : Endpoint) (n : Nat) : (s.setTarget e n).cfg = s.cfg := rfl
@[simp] theorem setTarget_st (e : Endpoint) (n : Nat) : (s.setTarget e n).st = s.st := rfl
@[simp] theorem setTarget_mem (e : Endpoint) (n : Nat) : (s.setTarget e n).mem = s.mem := rfl
@[simp] theorem setTarget_cur (e : Endpoint) (n : Nat) : (s.setTarget e n).cur = s.cur := rfl
@[simp] theorem setTarget_sorg (e : Endpoint) (n : Nat) : (s.setTarget e n).sorg = s.sorg := rfl
@[simp] theorem setTarget_prev (e : Endpoint) (n : Nat) : (s.setTarget e n).prev = s.prev := rfl
@[simp] theorem setTarget_connected (e : Endpoint) (n : Nat) : (s.setTarget e n).connected = s.connected := rfl
@[simp] theorem setTarget_frameBound (e : Endpoint) (n : Nat) : (s.setTarget e n).frameBound = s.frameBound := rfl
@[simp] theorem setTarget_tokenBound (e : Endpoint) (n : Nat) : (s.setTarget e n).tokenBound = s.tokenBound := rfl
@[simp] theorem setTarget_ackset (e : Endpoint) (n : Nat) : (s.setTarget e n).ackset = s.ackset := rfl
@[simp] theorem setTarget_req (e : Endpoint) (n : Nat) : (s.setTarget e n).req = s.req := rfl
@[simp] theorem setTarget_lsn (e : Endpoint) (n : Nat) : (s.setTarget e n).lsn = s.lsn := rfl
@[simp] theorem setTarget_tgt (e : Endpoint) (n : Nat) : (s.setTarget e n).tgt = tableSet id s.tgt e n := rfl
@[simp] theorem setTarget_rxq (e : Endpoint) (n : Nat) : (s.setTarget e n).rxq = s.rxq := rfl
@[simp] theorem setTarget_trace (e : Endpoint) (n : Nat) : (s.setTarget e n).trace = s.trace := rfl
@[simp] theorem setTarget_answer (e : Endpoint) (n : Nat) : (s.setTarget e n).answer = s.answer := rfl
@[simp] theorem setTarget_inputs (e : Endpoint) (n : Nat) : (s.setTarget e n).inputs = s.inputs := rfl
@[simp] theorem setTarget_provCalls (e : Endpoint) (n : Nat) : (s.setTarget e n).provCalls = s.provCalls := rfl
@[simp] theorem setTarget_picks (e : Endpoint) (n : Nat) : (s.setTarget e n).picks = s.picks := rfl

@[simp] theorem idle_cfg (t : Byte) : (s.idle t).cfg = s.cfg := rfl
@[simp] theorem idle_st (t : Byte) : (s.idle t).st = .waitStart := rfl
@[simp] theorem idle_mem (t : Byte) : (s.idle t).mem = s.mem := rfl
@[simp] theorem idle_cur (t : Byte) : (s.idle t).cur = 0 := rfl
@[simp] theorem idle_sorg (t : Byte) : (s.idle t).sorg = 0 := rfl
@[simp] theorem idle_prev (t : Byte) : (s.idle t).prev = t := rfl
@[simp] theorem idle_connected (t : Byte) : (s.idle t).connected = s.connected := rfl
@[simp] theorem idle_frameBound (t : Byte) : (s.idle t).frameBound = s.frameBound := rfl
@[simp] theorem idle_tokenBound (t : Byte) : (s.idle t).tokenBound = s.tokenBound := rfl
@[simp] theorem idle_ackset (t : Byte) : (s.idle t).ackset = s.ackset := rfl
@[simp] theorem idle_req (t : Byte) : (s.idle t).req = s.req := rfl
@[simp] theorem idle_lsn (t : Byte) : (s.idle t).lsn = s.lsn := rfl
@[simp] theorem idle_tgt (t : Byte) : (s.idle t).tgt = s.tgt := rfl
@[simp] theorem idle_rxq (t : Byte) : (s.idle t).rxq = s.rxq := rfl
@[simp] theorem idle_trace (t : Byte) : (s.idle t).trace = s.trace := rfl
@[simp] theorem idle_answer (t : Byte) : (s.idle t).answer = s.answer := rfl
@[simp] theorem idle_inputs (t : Byte) : (s.idle t).inputs = s.inputs := rfl
@[simp] theorem idle_provCalls (t : Byte) : (s.idle t).provCalls = s.provCalls := rfl
@[simp] theorem idle_picks (t : Byte) : (s.idle t).picks = s.picks := rfl

@[simp] theorem deliver_cfg (bs : List Byte) : (deliver bs s).cfg = s.cfg := rfl
@[simp] theorem deliver_st (bs : List Byte) : (deliver bs s).st = s.st := rfl
@[simp] theorem deliver_mem (bs : List Byte) : (deliver bs s).mem = s.mem := rfl
@[simp] theorem deliver_cur (bs : List Byte) : (deliver bs s).cur = s.cur := rfl
@[simp] theorem deliver_sorg (bs : List Byte) : (deliver bs s).sorg = s.sorg := rfl
@[simp] theorem deliver_prev (bs : List Byte) : (deliver bs s).prev = s.prev := rfl
@[simp] theorem deliver_connected (bs : List Byte) : (deliver bs s).connected = s.connected := rfl
@[simp] theorem deliver_frameBound (bs : List Byte) : (deliver bs s).frameBound = s.frameBound := rfl
@[simp] theorem deliver_tokenBound (bs : List Byte) : (deliver bs s).tokenBound = s.tokenBound := rfl
@[simp] theorem deliver_ackset (bs : List Byte) : (deliver bs s).ackset = s.ackset := rfl
@[simp] theorem deliver_req (bs : List Byte) : (deliver bs s).req = s.req := rfl
@[simp] theorem deliver_lsn (bs : List Byte) : (deliver bs s).lsn = s.lsn := rfl
@[simp] theorem deliver_tgt (bs : List Byte) : (deliver bs s).tgt = s.tgt := rfl
@[simp] theorem deliver_rxq (bs : List Byte) : (deliver bs s).rxq = s.rxq ++ bs := rfl
@[simp] theorem deliver_trace (bs : List Byte) : (deliver bs s).trace = s.trace := rfl
@[simp] theorem deliver_answer (bs : List Byte) : (deliver bs s).answer = s.answer := rfl
@[simp] theorem deliver_inputs (bs : List Byte) : (deliver bs s).inputs = s.inputs := rfl
@[simp] theorem deliver_provCalls (bs : List Byte) : (deliver bs s).provCalls = s.provCalls := rfl
@[simp] theorem deliver_picks (bs : List Byte) : (deliver bs s).picks = s.picks := rfl

@[simp] theorem sendBytes_cfg (p : List Byte) : (sendBytes p s).cfg = s.cfg := rfl
@[simp] theorem sendBytes_st (p : List Byte) : (sendBytes p s).st = s.st := rfl
@[simp] theorem sendBytes_mem (p : List Byte) : (sendBytes p s).mem = s.mem := rfl
@[simp] theorem sendBytes_cur (p : List Byte) : (sendBytes p s).cur = s.cur := rfl
@[simp] theorem sendBytes_sorg (p : List Byte) : (sendBytes p s).sorg = s.sorg := rfl
@[simp] theorem sendBytes_prev (p : List Byte) : (sendBytes p s).prev = s.prev := rfl
@[simp] theorem sendBytes_connected (p : List Byte) : (sendBytes p s).connected = s.connected := rfl
@[simp] theorem sendBytes_frameBound (p : List Byte) : (sendBytes p s).frameBound = s.frameBound := rfl
@[simp] theorem sendBytes_tokenBound (p : List Byte) : (sendBytes p s).tokenBound = s.tokenBound := rfl
@[simp] theorem sendBytes_ackset (p : List Byte) : (sendBytes p s).ackset = s.ackset := rfl
@[simp] theorem sendBytes_req (p : List Byte) : (sendBytes p s).req = s.req := rfl
@[simp] theorem sendBytes_lsn (p : List Byte) : (sendBytes p s).lsn = s.lsn := rfl
@[simp] theorem sendBytes_tgt (p : List Byte) : (sendBytes p s).tgt = s.tgt := rfl
@[simp] theorem sendBytes_rxq (p : List Byte) : (sendBytes p s).rxq = s.rxq := rfl
@[simp] theorem sendBytes_trace (p : List Byte) : (sendBytes p s).trace = s.trace ++ sendEvents s.cfg p := rfl
@[simp] theorem sendBytes_answer (p : List Byte) : (sendBytes p s).answer = s.answer := rfl
@[simp] theorem sendBytes_inputs (p : List Byte) : (sendBytes p s).inputs = s.inputs := rfl
@[simp] theorem sendBytes_provCalls (p : List Byte) : (sendBytes p s).provCalls = s.provCalls := rfl
@[simp] theorem sendBytes_picks (p : List Byte) : (sendBytes p s).picks = s.picks := rfl

@[simp] theorem listenerDispatch_cfg (tr : List Byte) : (listenerDispatch tr s).cfg = s.cfg := rfl
@[simp] theorem listenerDispatch_st (tr : List Byte) : (listenerDispatch tr s).st = s.st := rfl
@[simp] theorem listenerDispatch_mem (tr : List Byte) : (listenerDispatch tr s).mem = s.mem := rfl
@[simp] theorem listenerDispatch_cur (tr : List Byte) : (listenerDispatch tr s).cur = s.cur := rfl
@[simp] theorem listenerDispatch_sorg (tr : List Byte) : (listenerDispatch tr s).sorg = s.sorg := rfl
@[simp] theorem listenerDispatch_prev (tr : List Byte) : (listenerDispatch tr s).prev = s.prev := rfl
@[simp] theorem listenerDispatch_connected (tr : List Byte) : (listenerDispatch tr s).connected = s.connected := rfl
@[simp] theorem listenerDispatch_frameBound (tr : List Byte) : (listenerDispatch tr s).frameBound = s.frameBound := rfl
@[simp] theorem listenerDispatch_tokenBound (tr : List Byte) : (listenerDispatch tr s).tokenBound = s.tokenBound := rfl
@[simp] theorem listenerDispatch_ackset (tr : List Byte) : (listenerDispatch tr s).ackset = s.ackset := rfl
@[simp] theorem listenerDispatch_req (tr : List Byte) : (listenerDispatch tr s).req = s.req := rfl
@[simp] theorem listenerDispatch_lsn (tr : List Byte) : (listenerDispatch tr s).lsn = s.lsn := rfl
@[simp] theorem listenerDispatch_tgt (tr : List Byte) : (listenerDispatch tr s).tgt = s.tgt := rfl
@[simp] theorem listenerDispatch_rxq (tr : List Byte) : (listenerDispatch tr s).rxq = s.rxq := rfl
@[simp] theorem listenerDispatch_trace (tr : List Byte) : (listenerDispatch tr s).trace = s.trace ++ listenerEvents s tr := rfl
@[simp] theorem listenerDispatch_answer (tr : List Byte) : (listenerDispatch tr s).answer = s.answer := rfl
@[simp] theorem listenerDispatch_inputs (tr : List Byte) : (listenerDispatch tr s).inputs = s.inputs := rfl
@[simp] theorem listenerDispatch_provCalls (tr : List Byte) : (listenerDispatch tr s).provCalls = s.provCalls := rfl
@[simp] theorem listenerDispatch_picks (tr : List Byte) : (listenerDispatch tr s).picks = s.picks := rfl

@[simp] theorem broadcastAll_cfg (tr : List Byte) : (broadcastAll tr s).cfg = s.cfg := rfl
@[simp] theorem broadcastAll_st (tr : List Byte) : (broadcastAll tr s).st = s.st := rfl
@[simp] theorem broadcastAll_mem (tr : List Byte) : (broadcastAll tr s).mem = s.mem := rfl
@[simp] theorem broadcastAll_cur (tr : List Byte) : (broadcastAll tr s).cur = s.cur := rfl
@[simp] theorem broadcastAll_sorg (tr : List Byte) : (broadcastAll tr s).sorg = s.sorg := rfl
@[simp] theorem broadcastAll_prev (tr : List Byte) : (broadcastAll tr s).prev = s.prev := rfl
@[simp] theorem broadcastAll_connected (tr : List Byte) : (broadcastAll tr s).connected = s.connected := rfl
@[simp] theorem broadcastAll_frameBound (tr : List Byte) : (broadcastAll tr s).frameBound = s.frameBound := rfl
@[simp] theorem broadcastAll_tokenBound (tr : List Byte) : (broadcastAll tr s).tokenBound = s.tokenBound := rfl
@[simp] theorem broadcastAll_ackset (tr : List Byte) : (broadcastAll tr s).ackset = s.ackset := rfl
@[simp] theorem broadcastAll_req (tr : List Byte) : (broadcastAll tr s).req = s.req := rfl
@[simp] theorem broadcastAll_lsn (tr : List Byte) : (broadcastAll tr s).lsn = s.lsn := rfl
@[simp] theorem broadcastAll_tgt (tr : List Byte) : (broadcastAll tr s).tgt = s.tgt := rfl
@[simp] theorem broadcastAll_rxq (tr : List Byte) : (broadcastAll tr s).rxq = s.rxq := rfl
@[simp] theorem broadcastAll_answer (tr : List Byte) : (broadcastAll tr s).answer = s.answer := rfl
@[simp] theorem broadcastAll_inputs (tr : List Byte) : (broadcastAll tr s).inputs = s.inputs := rfl
@[simp] theorem broadcastAll_provCalls (tr : List Byte) : (broadcastAll tr s).provCalls = s.provCalls := rfl
@[simp] theorem broadcastAll_picks (tr : List Byte) : (broadcastAll tr s).picks = s.picks + (tableKeys s.tgt).length := rfl

@[simp] theorem fanOut_cfg (tr : List Byte) : (fanOut tr s).cfg = s.cfg := rfl
@[simp] theorem fanOut_st (tr : List Byte) : (fanOut tr s).st = s.st := rfl
@[simp] theorem fanOut_mem (tr : List Byte) : (fanOut tr s).mem = s.mem := rfl
@[simp] theorem fanOut_cur (tr : List Byte) : (fanOut tr s).cur = s.cur := rfl
@[simp] theorem fanOut_sorg (tr : List Byte) : (fanOut tr s).sorg = s.sorg := rfl
@[simp] theorem fanOut_prev (tr : List Byte) : (fanOut tr s).prev = s.prev := rfl
@[simp] theorem fanOut_connected (tr : List Byte) : (fanOut tr s).connected = s.connected := rfl
@[simp] theorem fanOut_frameBound (tr : List Byte) : (fanOut tr s).frameBound = s.frameBound := rfl
@[simp] theorem fanOut_tokenBound (tr : List Byte) : (fanOut tr s).tokenBound = s.tokenBound := rfl
@[simp] theorem fanOut_ackset (tr : List Byte) : (fanOut tr s).ackset = s.ackset := rfl
@[simp] theorem fanOut_req (tr : List Byte) : (fanOut tr s).req = s.req := rfl
@[simp] theorem fanOut_lsn (tr : List Byte) : (fanOut tr s).lsn = s.lsn := rfl
@[simp] theorem fanOut_tgt (tr : List Byte) : (fanOut tr s).tgt = s.tgt := rfl
@[simp] theorem fanOut_rxq (tr : List Byte) : (fanOut tr s).rxq = s.rxq := rfl
@[simp] theorem fanOut_answer (tr : List Byte) : (fanOut tr s).answer = s.answer := rfl
@[simp] theorem fanOut_inputs (tr : List Byte) : (fanOut tr s).inputs = s.inputs := rfl
@[simp] theorem fanOut_provCalls (tr : List Byte) : (fanOut tr s).provCalls = s.provCalls := rfl
@[simp] theorem fanOut_picks (tr : List Byte) : (fanOut tr s).picks = s.picks + (tableKeys s.tgt).length := rfl

@[simp] theorem slideWindow_cfg (b : Byte) : (slideWindow b s).cfg = s.cfg := rfl
@[simp] theorem slideWindow_st (b : Byte) : (slideWindow b s).st = s.st := rfl
@[simp] theorem slideWindow_mem (b : Byte) : (slideWindow b s).mem = s.mem := rfl
@[simp] theorem slideWindow_cur (b : Byte) : (slideWindow b s).cur = s.cur := rfl
@[simp] theorem slideWindow_sorg (b : Byte) : (slideWindow b s).sorg = s.sorg := rfl
@[simp] theorem slideWindow_prev (b : Byte) : (slideWindow b s).prev = b := rfl
@[simp] theorem slideWindow_connected (b : Byte) : (slideWindow b s).connected = s.connected := rfl
@[simp] theorem slideWindow_frameBound (b : Byte) : (slideWindow b s).frameBound = s.frameBound := rfl
@[simp] theorem slideWindow_tokenBound (b : Byte) : (slideWindow b s).tokenBound = s.tokenBound := rfl
@[simp] theorem slideWindow_ackset (b : Byte) : (slideWindow b s).ackset = s.ackset := rfl
@[simp] theorem slideWindow_req (b : Byte) : (slideWindow b s).req = s.req := rfl
@[simp] theorem slideWindow_lsn (b : Byte) : (slideWindow b s).lsn = s.lsn := rfl
@[simp] theorem slideWindow_tgt (b : Byte) : (slideWindow b s).tgt = s.tgt := rfl
@[simp] theorem slideWindow_rxq (b : Byte) : (slideWindow b s).rxq = s.rxq := rfl
@[simp] theorem slideWindow_trace (b : Byte) : (slideWindow b s).trace = s.trace := rfl
@[simp] theorem slideWindow_answer (b : Byte) : (slideWindow b s).answer = s.answer := rfl
@[simp] theorem slideWindow_inputs (b : Byte) : (slideWindow b s).inputs = s.inputs := rfl
@[simp] theorem slideWindow_provCalls (b : Byte) : (slideWindow b s).provCalls = s.provCalls := rfl
@[simp] theorem slideWindow_picks (b : Byte) : (slideWindow b s).picks = s.picks := rfl

@[simp] theorem dropDoubled_cfg : (dropDoubled s).cfg = s.cfg := rfl
@[simp] theorem dropDoubled_st : (dropDoubled s).st = s.st := rfl
@[simp] theorem dropDoubled_mem : (dropDoubled s).mem = s.mem := rfl
@[simp] theorem dropDoubled_cur : (dropDoubled s).cur = s.cur := rfl
@[simp] theorem dropDoubled_sorg : (dropDoubled s).sorg = s.sorg := rfl
@[simp] theorem dropDoubled_prev : (dropDoubled s).prev = s.cfg.masterStart := rfl
@[simp] theorem dropDoubled_connected : (dropDoubled s).connected = s.connected := rfl
@[simp] theorem dropDoubled_frameBound : (dropDoubled s).frameBound = s.frameBound := rfl
@[simp] theorem dropDoubled_tokenBound : (dropDoubled s).tokenBound = s.tokenBound := rfl
@[simp] theorem dropDoubled_ackset : (dropDoubled s).ackset = s.ackset := rfl
@[simp] theorem dropDoubled_req : (dropDoubled s).req = s.req := rfl
@[simp] theorem dropDoubled_lsn : (dropDoubled s).lsn = s.lsn := rfl
@[simp] theorem dropDoubled_tgt : (dropDoubled s).tgt = s.tgt := rfl
@[simp] theorem dropDoubled_rxq : (dropDoubled s).rxq = s.rxq := rfl
@[simp] theorem dropDoubled_trace : (dropDoubled s).trace = s.trace := rfl
@[simp] theorem dropDoubled_answer : (dropDoubled s).answer = s.answer := rfl
@[simp] theorem dropDoubled_inputs : (dropDoubled s).inputs = s.inputs := rfl
@[simp] theorem dropDoubled_provCalls : (dropDoubled s).provCalls = s.provCalls := rfl
@[simp] theorem dropDoubled_picks : (dropDoubled s).picks = s.picks := rfl

@[simp] theorem startFrame_cfg (b : Byte) : (startFrame b s).cfg = s.cfg := rfl
@[simp] theorem startFrame_st (b : Byte) : (startFrame b s).st = .waitData := rfl
@[simp] theorem startFrame_cur (b : Byte) : (startFrame b s).cur = 2 := rfl
@[simp] theorem startFrame_sorg (b : Byte) : (startFrame b s).sorg = s.sorg := rfl
@[simp] theorem startFrame_prev (b : Byte) : (startFrame b s).prev = b := rfl
@[simp] theorem startFrame_connected (b : Byte) : (startFrame b s).connected = s.connected := rfl
@[simp] theorem startFrame_frameBound (b : Byte) : (startFrame b s).frameBound = s.frameBound := rfl
@[simp] theorem startFrame_tokenBound (b : Byte) : (startFrame b s).tokenBound = s.tokenBound := rfl
@[simp] theorem startFrame_ackset (b : Byte) : (startFrame b s).ackset = s.ackset := rfl
@[simp] theorem startFrame_req (b : Byte) : (startFrame b s).req = s.req := rfl
@[simp] theorem startFrame_lsn (b : Byte) : (startFrame b s).lsn = s.lsn := rfl
@[simp] theorem startFrame_tgt (b : Byte) : (startFrame b s).tgt = s.tgt := rfl
@[simp] theorem startFrame_rxq (b : Byte) : (startFrame b s).rxq = s.rxq := rfl
@[simp] theorem startFrame_trace (b : Byte) : (startFrame b s).trace = s.trace := rfl
@[simp] theorem startFrame_answer (b : Byte) : (startFrame b s).answer = s.answer := rfl
@[simp] theorem startFrame_inputs (b : Byte) : (startFrame b s).inputs = s.inputs := rfl
@[simp] theorem startFrame_provCalls (b : Byte) : (startFrame b s).provCalls = s.provCalls := rfl
@[simp] theorem startFrame_picks (b : Byte) : (startFrame b s).picks = s.picks := rfl

@[simp] theorem startSlaveFrame_cfg : (startSlaveFrame s).cfg = s.cfg := rfl
@[simp] theorem startSlaveFrame_st : (startSlaveFrame s).st = .waitDataSlave := rfl
@[simp] theorem startSlaveFrame_mem : (startSlaveFrame s).mem = Memory.write s.mem s.cur s.cfg.slaveStart := rfl
@[simp] theorem startSlaveFrame_cur : (startSlaveFrame s).cur = s.cur + 1 := rfl
@[simp] theorem startSlaveFrame_sorg : (startSlaveFrame s).sorg = s.cur := rfl
@[simp] theorem startSlaveFrame_prev : (startSlaveFrame s).prev = s.prev := rfl
@[simp] theorem startSlaveFrame_connected : (startSlaveFrame s).connected = s.connected := rfl
@[simp] theorem startSlaveFrame_frameBound : (startSlaveFrame s).frameBound = s.frameBound := rfl
@[simp] theorem startSlaveFrame_tokenBound : (startSlaveFrame s).tokenBound = s.tokenBound := rfl
@[simp] theorem startSlaveFrame_ackset : (startSlaveFrame s).ackset = s.ackset := rfl
@[simp] theorem startSlaveFrame_req : (startSlaveFrame s).req = s.req := rfl
@[simp] theorem startSlaveFrame_lsn : (startSlaveFrame s).lsn = s.lsn := rfl
@[simp] theorem startSlaveFrame_tgt : (startSlaveFrame s).tgt = s.tgt := rfl
@[simp] theorem startSlaveFrame_rxq : (startSlaveFrame s).rxq = s.rxq := rfl
@[simp] theorem startSlaveFrame_trace : (startSlaveFrame s).trace = s.trace := rfl
@[simp] theorem startSlaveFrame_answer : (startSlaveFrame s).answer = s.answer := rfl
@[simp] theorem startSlaveFrame_inputs : (startSlaveFrame s).inputs = s.inputs := rfl
@[simp] theorem startSlaveFrame_provCalls : (startSlaveFrame s).provCalls = s.provCalls := rfl
@[simp] theorem startSlaveFrame_picks : (startSlaveFrame s).picks = s.picks := rfl

end Sys2Proof.Machine
end

