-- ==== Sys2Proof/Laws/Table.lean ====
section
/-! SUPPORT. The laws of the canonical finite maps and sets: a read after a write, and that every operation keeps
the canonical form. -/

namespace Sys2Proof.Machine

variable {κ α : Type} [DecidableEq κ]

@[simp] theorem tableGet_nil (k : κ) : tableGet ([] : List (κ × α)) k = none := rfl

theorem tableGet_tableSet (code : κ → Nat) (t : List (κ × α)) (k j : κ) (v : α) :
    tableGet (tableSet code t k v) j = if j = k then some v else tableGet t j := by
  induction t with
  | nil => simp [tableSet, tableGet]
  | cons x t ih =>
    obtain ⟨k', v'⟩ := x
    simp only [tableSet]
    split_ifs <;> simp_all [tableGet]

theorem tableGet_tableErase (t : List (κ × α)) (k j : κ) :
    tableGet (tableErase t k) j = if j = k then none else tableGet t j := by
  induction t with
  | nil => simp [tableErase]
  | cons x t ih =>
    obtain ⟨k', v'⟩ := x
    simp only [tableErase] at ih ⊢
    by_cases hk : k' = k
    · simp only [hk, List.filter_cons, ne_eq, not_true_eq_false, decide_false, Bool.false_eq_true,
        if_false, ih, tableGet]
      split_ifs <;> simp_all
    · simp only [List.filter_cons, hk, ne_eq, not_false_eq_true, decide_true, if_true, tableGet, ih]
      by_cases hj : j = k'
      · simp [hj, hk]
      · simp [hj]

theorem mem_tableSet {code : κ → Nat} {t : List (κ × α)} {k : κ} {v : α} {x : κ × α}
    (h : x ∈ tableSet code t k v) : x = (k, v) ∨ x ∈ t := by
  induction t with
  | nil => simpa [tableSet] using h
  | cons y t ih =>
    obtain ⟨k', v'⟩ := y
    simp only [tableSet] at h
    split_ifs at h with h1 h2
    · simp only [List.mem_cons] at h ⊢; tauto
    · simp only [List.mem_cons] at h ⊢; tauto
    · simp only [List.mem_cons] at h ⊢
      rcases h with h | h
      · tauto
      · rcases ih h with h | h <;> tauto

theorem tableSet_wf {code : κ → Nat} (inj : ∀ a b, code a = code b → a = b) {t : List (κ × α)}
    (h : TableWf code t) (k : κ) (v : α) : TableWf code (tableSet code t k v) := by
  induction t with
  | nil => simp [tableSet, TableWf]
  | cons x t ih =>
    obtain ⟨k', v'⟩ := x
    have ht := (List.pairwise_cons.mp h).2
    have hx := (List.pairwise_cons.mp h).1
    simp only [tableSet]
    split_ifs with h1 h2
    · exact List.pairwise_cons.mpr ⟨fun y hy => by simpa [h1] using hx y hy, ht⟩
    · refine List.pairwise_cons.mpr ⟨fun y hy => ?_, h⟩
      rcases List.mem_cons.mp hy with rfl | hy
      · exact h2
      · exact lt_trans h2 (hx y hy)
    · refine List.pairwise_cons.mpr ⟨fun y hy => ?_, ih ht⟩
      rcases mem_tableSet hy with rfl | hy
      · exact lt_of_le_of_ne (not_lt.mp h2) fun e => h1 (inj _ _ e.symm)
      · exact hx y hy

theorem tableErase_wf {code : κ → Nat} {t : List (κ × α)} (h : TableWf code t) (k : κ) :
    TableWf code (tableErase t k) := h.filter _

theorem mem_setInsert {code : κ → Nat} {t : List κ} {k x : κ} :
    x ∈ setInsert code t k ↔ x = k ∨ x ∈ t := by
  induction t with
  | nil => simp [setInsert]
  | cons y t ih =>
    simp only [setInsert]
    split_ifs with h1 h2
    · subst h1; simp
    · simp
    · simp only [List.mem_cons, ih]; tauto

theorem mem_setErase {t : List κ} {k x : κ} : x ∈ setErase t k ↔ x ≠ k ∧ x ∈ t := by
  simp [setErase, and_comm]

theorem setInsert_wf {code : κ → Nat} (inj : ∀ a b, code a = code b → a = b) {t : List κ}
    (h : SetWf code t) (k : κ) : SetWf code (setInsert code t k) := by
  induction t with
  | nil => simp [setInsert, SetWf]
  | cons y t ih =>
    have ht := (List.pairwise_cons.mp h).2
    have hy := (List.pairwise_cons.mp h).1
    simp only [setInsert]
    split_ifs with h1 h2
    · exact h
    · refine List.pairwise_cons.mpr ⟨fun z hz => ?_, h⟩
      rcases List.mem_cons.mp hz with rfl | hz
      · exact h2
      · exact lt_trans h2 (hy z hz)
    · refine List.pairwise_cons.mpr ⟨fun z hz => ?_, ih ht⟩
      rcases mem_setInsert.mp hz with rfl | hz
      · exact lt_of_le_of_ne (not_lt.mp h2) fun e => h1 (inj _ _ e.symm)
      · exact hy z hz

theorem setErase_wf {code : κ → Nat} {t : List κ} (h : SetWf code t) (k : κ) :
    SetWf code (setErase t k) := h.filter _

/-- A listed pair is what a read finds, in a map whose keys strictly rise. -/
theorem tableGet_of_mem {code : κ → Nat} {t : List (κ × α)} (h : TableWf code t) {k : κ} {v : α}
    (hm : (k, v) ∈ t) : tableGet t k = some v := by
  induction t with
  | nil => simp at hm
  | cons x t ih =>
    obtain ⟨k', v'⟩ := x
    rcases List.mem_cons.mp hm with e | hm'
    · cases e; simp [tableGet]
    · have hlt := (List.pairwise_cons.mp h).1 _ hm'
      have hne : k ≠ k' := fun e => by subst e; exact lt_irrefl _ hlt
      simpa [tableGet, hne] using ih (List.pairwise_cons.mp h).2 hm'

/-- What a read finds is listed. -/
theorem mem_of_tableGet {t : List (κ × α)} {k : κ} {v : α} (h : tableGet t k = some v) :
    (k, v) ∈ t := by
  induction t with
  | nil => simp at h
  | cons x t ih =>
    obtain ⟨k', v'⟩ := x
    simp only [tableGet] at h
    split_ifs at h with hk
    · subst hk; cases h; simp
    · exact List.mem_cons_of_mem _ (ih h)

theorem keyless_iff {t : List (κ × α)} {k : κ} : tableGet t k = none ↔ k ∉ tableKeys t := by
  induction t with
  | nil => simp [tableKeys]
  | cons x t ih =>
    obtain ⟨k', v'⟩ := x
    simp only [tableGet, tableKeys, List.map_cons, List.mem_cons] at ih ⊢
    split_ifs with hk <;> simp_all

end Sys2Proof.Machine
end

