-- ==== Sys2Proof/Laws/Memory.lean ====
section
/-! SUPPORT. The laws of the transcript buffer: a read after a write, the frame of a write, and that every memory
operation keeps the canonical form and the range. -/

namespace Sys2Proof.Machine

theorem memory_read_write (m : List Host.Cell) (i j : Nat) (b : Byte) :
    Memory.read (Memory.write m i b) j = if j = i then b else Memory.read m j := by
  simp only [Memory.read, Memory.write]
  by_cases hb : b = 0
  · simp only [hb, if_true, tableGet_tableErase]
    split_ifs <;> simp
  · simp only [hb, if_false, tableGet_tableSet]
    split_ifs <;> simp

/-- Every write of memory keeps the canonical form. -/
theorem memory_write_wf {m : List Host.Cell} (h : Memory.wf m) (i : Nat) (b : Byte) :
    Memory.wf (Memory.write m i b) := by
  obtain ⟨h1, h2⟩ := h
  simp only [Memory.write]
  split_ifs with hb
  · exact ⟨tableErase_wf h1 i, fun c hc => h2 c (List.mem_filter.mp hc).1⟩
  · refine ⟨tableSet_wf (fun _ _ e => e) h1 i b, fun c hc => ?_⟩
    rcases mem_tableSet hc with rfl | hc
    · exact hb
    · exact h2 c hc

theorem memory_write_mem {m : List Host.Cell} {i : Nat} {b : Byte} {x : Host.Cell}
    (hx : x ∈ Memory.write m i b) : x.1 = i ∨ x ∈ m := by
  simp only [Memory.write] at hx
  split_ifs at hx
  · exact Or.inr (List.mem_filter.mp hx).1
  · rcases mem_tableSet hx with rfl | hx <;> simp_all

theorem readBuf_writeBuf (s : State) (i j : Nat) (b : Byte) :
    (s.writeBuf i b).readBuf j = if j = i then b else s.readBuf j :=
  memory_read_write _ _ _ _

theorem readBuf_append (s : State) (b : Byte) (j : Nat) :
    (s.append b).readBuf j = if j = s.cur then b else s.readBuf j :=
  memory_read_write _ _ _ _

/-- The append keeps memory canonical. -/
theorem append_memWf {s : State} (h : Memory.wf s.mem) (b : Byte) : Memory.wf (s.append b).mem :=
  memory_write_wf h _ _

/-- The first two bytes of a frame keep memory canonical. -/
theorem startFrame_memWf {s : State} (h : Memory.wf s.mem) (b : Byte) :
    Memory.wf (startFrame b s).mem := memory_write_wf (memory_write_wf h _ _) _ _

theorem readBuf_startFrame (s : State) (b : Byte) (j : Nat) :
    (startFrame b s).readBuf j =
      if j = 0 then s.cfg.masterStart else if j = 1 then b else s.readBuf j := by
  simp only [startFrame, State.readBuf, State.writeBuf, memory_read_write]
  split_ifs <;> simp_all

/-- A read depends on memory alone. -/
theorem readBuf_congr {s t : State} (h : t.mem = s.mem) (i : Nat) : t.readBuf i = s.readBuf i := by
  simp [State.readBuf, h]

theorem bufSlice_congr {s t : State} {i j : Nat}
    (h : ∀ k, i ≤ k → k < j → t.readBuf k = s.readBuf k) : t.bufSlice i j = s.bufSlice i j := by
  simp only [State.bufSlice]
  refine List.map_congr_left fun k hk => h _ (by omega) ?_
  have := List.mem_range.mp hk
  omega

@[simp] theorem bufSlice_length (s : State) (i j : Nat) : (s.bufSlice i j).length = j - i := by
  simp [State.bufSlice]

/-- Byte `k` of a slice. -/
theorem byteAt_bufSlice {s : State} {i j k : Nat} (h : k < j - i) :
    byteAt (s.bufSlice i j) k = s.readBuf (i + k) := by
  simp [byteAt, State.bufSlice, h]

/-- A slice one byte longer. -/
theorem bufSlice_succ (s : State) {i j : Nat} (h : i ≤ j) :
    s.bufSlice i (j + 1) = s.bufSlice i j ++ [s.readBuf j] := by
  simp only [State.bufSlice, Nat.succ_sub h, List.range_succ, List.map_append, List.map_cons, List.map_nil]
  simp [Nat.add_sub_cancel' h]

/-- The append puts its byte at the end of the transcript. -/
theorem transcript_append (s : State) (b : Byte) :
    (s.append b).transcript = s.transcript ++ [b] := by
  rw [State.transcript, append_cur, bufSlice_succ _ (Nat.zero_le _), readBuf_append, if_pos rfl]
  congr 1
  exact bufSlice_congr fun k _ hk => by rw [readBuf_append, if_neg (by omega)]

/-- A checked append appends, where there is room. -/
theorem pushByte_room {s : State} (h : s.cur < s.cfg.bufCap) (b : Byte) :
    pushByte b s = .next (s.append b) := by
  simp [pushByte, Nat.not_le.mpr h]

/-- A checked append stops on a full buffer. -/
theorem pushByte_full {s : State} (h : s.cfg.bufCap ≤ s.cur) (b : Byte) :
    pushByte b s = .fault .bufRange := by
  simp [pushByte, h]

/-- The appends of a list, as one state. -/
def appendAll : List Byte → State → State
  | [], s => s
  | b :: bs, s => appendAll bs (s.append b)

/-- The checked appends of a list append it whole, where there is room for all of it. -/
theorem pushBytes_room {bs : List Byte} {s : State} (h : s.cur + bs.length ≤ s.cfg.bufCap) :
    pushBytes bs s = .next (appendAll bs s) := by
  induction bs generalizing s with
  | nil => rfl
  | cons b bs ih =>
    simp only [List.length_cons] at h
    rw [pushBytes, pushByte_room (by omega)]
    exact ih (by simp only [append_cur, append_cfg]; omega)

/-- What the appends of a list change: memory and the cursor. -/
theorem appendAll_frame (bs : List Byte) (s : State) :
    appendAll bs s = { s with mem := (appendAll bs s).mem, cur := s.cur + bs.length } := by
  induction bs generalizing s with
  | nil => rfl
  | cons b bs ih =>
    rw [appendAll, ih (s.append b)]
    simp only [State.append, List.length_cons]
    congr 1
    omega

theorem appendAll_memWf {bs : List Byte} {s : State} (h : Memory.wf s.mem) :
    Memory.wf (appendAll bs s).mem := by
  induction bs generalizing s with
  | nil => exact h
  | cons b bs ih => exact ih (append_memWf h b)

/-- The bytes of a list stand at the cursor, every other byte as before. -/
theorem appendAll_bytes (bs : List Byte) (s : State) : BufAppended s (appendAll bs s) bs := by
  induction bs generalizing s with
  | nil =>
    intro i
    rw [if_neg (by simp only [List.length_nil]; omega)]
    rfl
  | cons b bs ih =>
    intro i
    rw [appendAll, ih (s.append b) i, append_cur, List.length_cons]
    by_cases h1 : i = s.cur
    · subst h1
      rw [if_neg (by omega), if_pos (by omega), readBuf_append, if_pos rfl]
      simp [byteAt]
    · by_cases h2 : s.cur + 1 ≤ i ∧ i < s.cur + 1 + bs.length
      · rw [if_pos h2, if_pos (by omega)]
        obtain ⟨k, rfl⟩ : ∃ k, i = s.cur + 1 + k := ⟨i - (s.cur + 1), by omega⟩
        have e1 : s.cur + 1 + k - (s.cur + 1) = k := by omega
        have e2 : s.cur + 1 + k - s.cur = k + 1 := by omega
        rw [e1, e2]
        simp [byteAt]
      · rw [if_neg h2, if_neg (by omega), readBuf_append, if_neg h1]

theorem transcript_appendAll (bs : List Byte) (s : State) :
    (appendAll bs s).transcript = s.transcript ++ bs := by
  induction bs generalizing s with
  | nil => simp [appendAll]
  | cons b bs ih => rw [appendAll, ih, transcript_append]; simp

/-- Memory right after reset is canonical. -/
theorem reset_memWf (c : Config) : Memory.wf (State.resetWith c).mem :=
  ⟨List.Pairwise.nil, by simp [State.resetWith]⟩

end Sys2Proof.Machine
end

