-- ==== Sys2Proof/Laws/Ops.lean ====
section
/-! SUPPORT. One lemma per shared operation that says everything it can do: sequencing, table entries, the token
poll, the broadcast order, the flush, the error entry, and the frame of a received byte. -/

namespace Sys2Proof.Machine

/-! ### Sequencing -/

@[simp] theorem andThen_next (s : State) (f : State → Result) : andThen (.next s) f = f s := rfl
@[simp] theorem andThen_fault (r : Fault) (f : State → Result) :
    andThen (.fault r) f = .fault r := rfl
@[simp] theorem andThen_refused (r : Refusal) (f : State → Result) :
    andThen (.refused r) f = .refused r := rfl

/-- A sequence goes on exactly where both parts do. -/
theorem andThen_eq_next {o : Result} {f : State → Result} {t : State} :
    andThen o f = .next t ↔ ∃ u, o = .next u ∧ f u = .next t := by
  cases o <;> simp [andThen]

theorem andThen_assoc (o : Result) (f g : State → Result) :
    andThen (andThen o f) g = andThen o fun s => andThen (f s) g := by
  cases o <;> rfl

/-- Bytes fed in two parts. -/
theorem feed_append (xs ys : List Byte) (s : State) :
    feed (xs ++ ys) s = andThen (feed xs s) (feed ys) := by
  induction xs generalizing s with
  | nil => rfl
  | cons x xs ih =>
    simp only [List.cons_append, feed, andThen_assoc]
    congr 1
    funext t
    exact ih t

/-! ### Keys and entries -/

theorem keyCode_inj (a b : Key) (h : keyCode a = keyCode b) : a = b := by
  obtain ⟨x, u⟩ := a
  obtain ⟨y, v⟩ := b
  simp only [keyCode] at h
  have hu := u.isLt
  have hv := v.isLt
  have h1 : x.toNat = y.toNat := by omega
  have h2 : u.toNat = v.toNat := by omega
  rw [BitVec.toNat_inj] at h1 h2
  rw [h1, h2]

theorem addrCode_inj (a b : Addr) (h : addrCode a = addrCode b) : a = b :=
  BitVec.toNat_inj.mp h

/-- An entry after an entry is set: an absent entry and the empty one read alike (R19). -/
theorem entry_setEntry (s : State) (k j : Key) (e : ReqEntry) :
    (s.setEntry k e).entry j = if j = k then e else s.entry j := by
  simp only [State.entry, State.setEntry]
  by_cases he : e = ReqEntry.empty
  · simp only [he, if_true, tableGet_tableErase]
    split_ifs <;> rfl
  · simp only [he, if_false, tableGet_tableSet]
    split_ifs <;> rfl

theorem setEntry_reqWf {s : State} (h : TableWf keyCode s.req) (k : Key) (e : ReqEntry) :
    TableWf keyCode (s.setEntry k e).req := by
  simp only [State.setEntry]
  split_ifs
  · exact tableErase_wf h k
  · exact tableSet_wf keyCode_inj h k e

/-- What `setEntry` lists: the entry it sets, unless empty, and entries that were listed. -/
theorem mem_setEntry {s : State} {k : Key} {e : ReqEntry} {x : Key × ReqEntry}
    (h : x ∈ (s.setEntry k e).req) : (x = (k, e) ∧ e ≠ ReqEntry.empty) ∨ x ∈ s.req := by
  simp only [State.setEntry] at h
  split_ifs at h with he
  · exact Or.inr (List.mem_filter.mp h).1
  · rcases mem_tableSet h with rfl | h
    · exact Or.inl ⟨rfl, he⟩
    · exact Or.inr h

/-! ### The token poll -/

/-- The token poll writes the polled entry and the provider counter, and nothing else. -/
theorem afterPoll_frame (s : State) (a : Addr) (c : Byte) :
    afterPoll s a c =
      { s with req := (afterPoll s a c).req, provCalls := (afterPoll s a c).provCalls } := by
  unfold afterPoll
  split
  · split
    · rfl
    · split <;> rfl
  · rfl

/-- The token poll takes at most the front of the polled queue, and no fallback (R146, R147). -/
theorem entry_afterPoll (s : State) (a : Addr) (c : Byte) (j : Key) :
    (afterPoll s a c).entry j =
      if j = ⟨a, c⟩ ∧ s.tokenBound = true then
        { s.entry j with queue := (s.entry j).queue.drop 1 }
      else s.entry j := by
  unfold afterPoll
  by_cases hb : s.tokenBound = true
  · simp only [hb, if_true, and_true]
    cases hq : (s.entry ⟨a, c⟩).queue with
    | cons p q =>
      simp only [entry_setEntry]
      split_ifs with hj
      · subst hj; simp [hq]
      · rfl
    | nil =>
      have key : ∀ u : State, u.req = s.req →
          u.entry j = if j = ⟨a, c⟩ then
            { s.entry j with queue := (s.entry j).queue.drop 1 } else s.entry j := by
        intro u hu
        have hus : u.entry j = s.entry j := by simp [State.entry, hu]
        rw [hus]
        split_ifs with hj
        · subst hj
          rw [hq]
          simp only [List.drop_nil]
          rw [← hq]
        · rfl
      dsimp only
      split <;> exact key _ rfl
  · simp [hb]

theorem polled_frame (s : State) :
    s.polled = { s with req := s.polled.req, provCalls := s.polled.provCalls } :=
  afterPoll_frame _ _ _

/-! ### The fan-out -/

theorem pickIndex_lt {n len : Nat} (h : 0 < len) : pickIndex n len < len := by
  unfold pickIndex
  split_ifs
  · exact h
  · exact Nat.mod_lt _ h

/-- Whatever the free choices are, the drawn order is an order of the given endpoints. -/
theorem drawOrder_perm (k n : Nat) (es : List Endpoint) (h : es.length = k) :
    (drawOrder k n es).Perm es := by
  induction k generalizing n es with
  | zero => simp [drawOrder, List.length_eq_zero_iff.mp h]
  | succ k ih =>
    have hi : pickIndex n es.length < es.length := pickIndex_lt (by omega)
    simp only [drawOrder, List.getElem?_eq_getElem hi]
    exact ((ih (n + 1) _ (by rw [List.length_eraseIdx_of_lt hi]; omega)).cons _).trans
      (List.getElem_cons_eraseIdx_perm hi)

theorem broadcastOrder_perm (s : State) : (broadcastOrder s).Perm (tableKeys s.tgt) :=
  drawOrder_perm _ _ _ rfl

/-- Everything a delivery does: it appends the events of a delivery, and counts its choices. -/
theorem deliverTranscript_spec (tr : List Byte) (s : State) :
    ∃ es n, IsDelivery s tr es ∧
      deliverTranscript tr s = { s with trace := s.trace ++ es, picks := n } := by
  unfold deliverTranscript IsDelivery
  split_ifs
  · refine ⟨_, s.picks + (tableKeys s.tgt).length,
      ⟨broadcastOrder s, broadcastOrder_perm s, rfl⟩, ?_⟩
    simp only [fanOut, broadcastAll, listenerDispatch, State.emit]
    congr 1
    simp [broadcastOrder, listenerEvents]
  · exact ⟨_, s.picks, rfl, rfl⟩

/-- Everything the flush does (R118). -/
theorem complete_flushed (seed : Byte) (s : State) :
    Flushed s (complete seed s) [] s.transcript seed := by
  obtain ⟨es, n, hes, h⟩ := deliverTranscript_spec s.transcript s
  unfold complete
  rw [h]
  exact ⟨rfl, es, hes, by simp [State.idle]⟩

@[simp] theorem complete_mem (seed : Byte) (s : State) : (complete seed s).mem = s.mem := by
  obtain ⟨es, n, _, h⟩ := deliverTranscript_spec s.transcript s
  unfold complete
  rw [h]
  rfl

@[simp] theorem complete_readBuf (seed : Byte) (s : State) (i : Nat) :
    (complete seed s).readBuf i = s.readBuf i := readBuf_congr (complete_mem seed s) i

/-- Everything the error entry does (R199). -/
theorem raiseError_flushed (e : ErrorClass) (s : State) :
    Flushed s (raiseError e s) [.log e] s.transcript 0 := by
  obtain ⟨h1, es, hes, h2⟩ := complete_flushed 0 (s.emit [.log e])
  exact ⟨h1, es, hes, by simpa [raiseError] using h2⟩

@[simp] theorem raiseError_mem (e : ErrorClass) (s : State) : (raiseError e s).mem = s.mem := by
  simp [raiseError]

@[simp] theorem raiseError_readBuf (e : ErrorClass) (s : State) (i : Nat) :
    (raiseError e s).readBuf i = s.readBuf i := readBuf_congr (raiseError_mem e s) i

/-! ### The frame of a received byte -/

/-- `t` differs from `s` only in what a received byte may touch (R202): session registers, buffer, the queues,
the trace and the free-value counters. -/
def BusFrame (s t : State) : Prop :=
  t = { s with
        st := t.st, mem := t.mem, cur := t.cur, sorg := t.sorg, prev := t.prev, req := t.req,
        trace := t.trace, provCalls := t.provCalls, picks := t.picks }

theorem BusFrame.rfl' (s : State) : BusFrame s s := rfl

theorem BusFrame.trans' {s t u : State} (h : BusFrame s t) (k : BusFrame t u) : BusFrame s u := by
  unfold BusFrame at *
  rw [k, h]

theorem Flushed.busFrame {s t : State} {pre tr seed} (h : Flushed s t pre tr seed) :
    BusFrame s t := by
  unfold BusFrame
  rw [h.1]

theorem pushByte_frame {b : Byte} {s t : State} (h : pushByte b s = .next t) : BusFrame s t := by
  unfold pushByte at h
  split_ifs at h
  cases h
  rfl

theorem pushBytes_frame {bs : List Byte} {s t : State} (h : pushBytes bs s = .next t) :
    BusFrame s t := by
  induction bs generalizing s with
  | nil => cases h; rfl
  | cons b bs ih =>
    obtain ⟨u, hu, ht⟩ := andThen_eq_next.mp h
    exact (pushByte_frame hu).trans' (ih ht)

theorem polled_busFrame (s : State) : BusFrame s s.polled := by
  unfold BusFrame
  rw [polled_frame]

theorem answerPoll_frame {p : List Byte} {s t : State} (h : answerPoll p s = .next t) :
    BusFrame s t := by
  obtain ⟨u, hu, ht⟩ := andThen_eq_next.mp h
  cases ht
  have : BusFrame s (sendBytes p s) := rfl
  exact (this.trans' (pushBytes_frame hu)).trans' rfl

theorem ackAndComplete_frame {s t : State} (h : ackAndComplete s = .next t) : BusFrame s t := by
  obtain ⟨u, hu, ht⟩ := andThen_eq_next.mp h
  cases ht
  have : BusFrame s (sendBytes [s.cfg.ack] s) := rfl
  exact (this.trans' (pushByte_frame hu)).trans' (complete_flushed 0 u).busFrame

theorem execDispatch_frame {s t : State} (h : execDispatch s = .next t) : BusFrame s t := by
  unfold execDispatch runDispatch at h
  split at h
  · exact (polled_busFrame s).trans' (answerPoll_frame h)
  · exact (polled_busFrame s).trans' (ackAndComplete_frame h)
  · exact ackAndComplete_frame h
  · cases h; rfl
  · cases h; rfl
  · cases h

theorem classifyAck_frame (b : Byte) (s : State) : BusFrame s (classifyAck b s) := by
  unfold classifyAck
  split_ifs
  · exact (complete_flushed 0 s).busFrame
  · exact (complete_flushed 0 s).busFrame
  · exact BusFrame.trans' (t := { s with cur := s.cur - 1 }) rfl (complete_flushed _ _).busFrame
  · exact (raiseError_flushed _ s).busFrame

theorem execAckh_frame {b : Byte} {s t : State} (h : execAckh b s = .next t) : BusFrame s t := by
  obtain ⟨u, hu, ht⟩ := andThen_eq_next.mp h
  cases ht
  exact (pushByte_frame hu).trans' (classifyAck_frame b u)

theorem waitStartRules_frame (b : Byte) (s : State) : BusFrame s (waitStartRules b s) := by
  unfold waitStartRules
  split_ifs <;> rfl

theorem overflowGuard_frame (s : State) : BusFrame s (overflowGuard s) := by
  unfold overflowGuard
  split_ifs
  · exact (raiseError_flushed _ s).busFrame
  · rfl

theorem parserRules_frame {b : Byte} {s t : State} (h : parserRules b s = .next t) :
    BusFrame s t := by
  unfold parserRules at h
  split at h
  · cases h; exact waitStartRules_frame b s
  · obtain ⟨u, hu, ht⟩ := andThen_eq_next.mp h
    refine (pushByte_frame hu).trans' ?_
    split at ht
    · cases ht; rfl
    · cases ht; exact (raiseError_flushed _ u).busFrame
    · cases ht; exact (raiseError_flushed _ u).busFrame
    · exact execDispatch_frame ht
  · unfold waitStartSlaveRules at h
    split_ifs at h
    · obtain ⟨u, hu, ht⟩ := andThen_eq_next.mp h
      cases ht
      exact (pushByte_frame hu).trans' rfl
    · exact execAckh_frame h
  · obtain ⟨u, hu, ht⟩ := andThen_eq_next.mp h
    cases ht
    refine (pushByte_frame hu).trans' ?_
    split_ifs <;> rfl
  · exact execAckh_frame h

/-- What a received byte leaves alone. -/
theorem consumeByte_frame {b : Byte} {s t : State} (h : consumeByte b s = .next t) :
    BusFrame s t :=
  (overflowGuard_frame s).trans' (parserRules_frame h)

end Sys2Proof.Machine
end

