-- ==== Sys2Proof/Laws/PerInstr.lean ====
section
/-! SUPPORT. Per instruction: the word its encoding puts on the bus or the host port has the bits that
spec/opcode_table.json fixes for its row (under the default configuration, whose markers and sentinels the table
uses), and the rows with no encoding (R73) have no word. -/

namespace Sys2Proof.Laws.TableRow

open Sys2Proof.Machine

/-- One `fixed` entry of an opcode-table row: bits `hi` down to `lo` hold `value`. -/
structure Fixed where
  hi : Nat
  lo : Nat
  value : Nat

/-- The `fixed` entries of each row; none for the INTERNAL rows, which have no encoding. -/
def fixedBits : Instr → Option (List Fixed)
  | .ovf _ _ => some []
  | .wsDbl => some [⟨10, 0, 92⟩]
  | .wsStart _ => some [⟨10, 8, 0⟩]
  | .wsSlide _ => some [⟨10, 8, 0⟩]
  | .wdAppend _ => some [⟨10, 8, 2⟩]
  | .wdBadlen _ => some [⟨10, 8, 2⟩]
  | .wdBadsum _ => some [⟨10, 8, 2⟩]
  | .wdValid _ => some [⟨10, 8, 2⟩]
  | .wdPollAns _ => some [⟨10, 8, 2⟩]
  | .wdPollAck _ => some [⟨10, 8, 2⟩]
  | .wdDataAck _ => some [⟨10, 8, 2⟩]
  | .wdPollObs _ => some [⟨10, 8, 2⟩]
  | .wdDataObs _ => some [⟨10, 8, 2⟩]
  | .wssStart => some [⟨10, 0, 448⟩]
  | .wssOther _ => some [⟨10, 8, 1⟩]
  | .wdsAppend _ => some [⟨10, 8, 3⟩]
  | .wdsDone _ => some [⟨10, 8, 3⟩]
  | .wa _ => some [⟨10, 8, 4⟩]
  | .ackhAck => some [⟨10, 0, 1030⟩]
  | .ackhNak => some [⟨10, 0, 1045⟩]
  | .ackhMark => some [⟨10, 0, 1116⟩]
  | .ackhOther _ => some [⟨10, 8, 4⟩]
  | .mframe _ _ _ => some [⟨7, 0, 92⟩]
  | .sframe _ _ => some [⟨7, 0, 192⟩]
  | .ackbyte => some [⟨7, 0, 6⟩]
  | .nakbyte => some [⟨7, 0, 21⟩]
  | .setack _ _ => some [⟨7, 0, 1⟩]
  | .enq _ _ _ => some [⟨7, 0, 2⟩]
  | .setprov _ _ _ => some [⟨7, 0, 3⟩]
  | .setconst _ _ _ => some [⟨7, 0, 4⟩]
  | .addlsn _ _ _ => some [⟨7, 0, 5⟩]
  | .refresh _ _ => some [⟨7, 0, 6⟩]
  | .sweep _ => some [⟨7, 0, 7⟩]
  | .connect => some [⟨7, 0, 8⟩]
  | .disconnect => some [⟨7, 0, 9⟩]
  | .connected => some [⟨7, 0, 10⟩]
  | .loop => some [⟨7, 0, 11⟩]
  | .inprog => some [⟨7, 0, 12⟩]
  | .consume _ => some [⟨7, 0, 13⟩]
  | .onframe _ => some [⟨7, 0, 14⟩]
  | .ontoken _ => some [⟨7, 0, 15⟩]
  | .csum _ => none
  | .csumok _ _ => none
  | .mfvalid _ => none
  | .sfvalid _ => none
  | .mkmaster _ _ _ => none
  | .mkslave _ _ => none
  | .dispatch => none
  | .ackh _ => none
  | .complete _ => none
  | .sendbytes _ => none
  | .sendack => none
  | .sendnak => none
  | .tokenpoll _ _ => none
  | .fanout _ => none
  | .lsndispatch _ => none
  | .dedup _ => none
  | .broadcast _ => none

/-- The word of `i` has the bits its row fixes, and there is a word exactly where the row has an encoding. -/
def Statement (i : Instr) : Prop :=
  match fixedBits i, tableWord Config.default i with
  | some fs, some w => ∀ f ∈ fs, w / 2 ^ f.lo % 2 ^ (f.hi + 1 - f.lo) = f.value
  | none, none => True
  | _, _ => False

theorem of_word {i : Instr} {fs : List Fixed} {w : Nat} (hf : fixedBits i = some fs)
    (hw : tableWord Config.default i = some w)
    (h : ∀ f ∈ fs, w / 2 ^ f.lo % 2 ^ (f.hi + 1 - f.lo) = f.value) : Statement i := by
  unfold Statement
  rw [hf, hw]
  exact h

/-- Bits 10 to 8 of an RX word are the state's number. -/
theorem of_state (st : ParserState) (b : Byte) (h : stateCode st < 8) :
    ∀ f ∈ [Fixed.mk 10 8 (stateCode st)],
      rxWord st b / 2 ^ f.lo % 2 ^ (f.hi + 1 - f.lo) = f.value := by
  have := b.isLt
  simp only [rxWord, List.mem_singleton, forall_eq]
  omega

theorem ovf (st : ParserState) (b : Byte) : Statement (.ovf st b) := of_word rfl rfl (by simp)

theorem wsDbl : Statement (.wsDbl) := of_word rfl rfl (by simp [rxWord, stateCode, Config.default])

theorem wsStart (b : Byte) : Statement (.wsStart b) := of_word rfl rfl (of_state .waitStart b (by decide))

theorem wsSlide (b : Byte) : Statement (.wsSlide b) := of_word rfl rfl (of_state .waitStart b (by decide))

theorem wdAppend (b : Byte) : Statement (.wdAppend b) := of_word rfl rfl (of_state .waitData b (by decide))

theorem wdBadlen (b : Byte) : Statement (.wdBadlen b) := of_word rfl rfl (of_state .waitData b (by decide))

theorem wdBadsum (b : Byte) : Statement (.wdBadsum b) := of_word rfl rfl (of_state .waitData b (by decide))

theorem wdValid (b : Byte) : Statement (.wdValid b) := of_word rfl rfl (of_state .waitData b (by decide))

theorem wdPollAns (b : Byte) : Statement (.wdPollAns b) := of_word rfl rfl (of_state .waitData b (by decide))

theorem wdPollAck (b : Byte) : Statement (.wdPollAck b) := of_word rfl rfl (of_state .waitData b (by decide))

theorem wdDataAck (b : Byte) : Statement (.wdDataAck b) := of_word rfl rfl (of_state .waitData b (by decide))

theorem wdPollObs (b : Byte) : Statement (.wdPollObs b) := of_word rfl rfl (of_state .waitData b (by decide))

theorem wdDataObs (b : Byte) : Statement (.wdDataObs b) := of_word rfl rfl (of_state .waitData b (by decide))

theorem wssStart : Statement (.wssStart) := of_word rfl rfl (by simp [rxWord, stateCode, Config.default])

theorem wssOther (b : Byte) : Statement (.wssOther b) := of_word rfl rfl (of_state .waitStartSlave b (by decide))

theorem wdsAppend (b : Byte) : Statement (.wdsAppend b) := of_word rfl rfl (of_state .waitDataSlave b (by decide))

theorem wdsDone (b : Byte) : Statement (.wdsDone b) := of_word rfl rfl (of_state .waitDataSlave b (by decide))

theorem wa (b : Byte) : Statement (.wa b) := of_word rfl rfl (of_state .waitAck b (by decide))

theorem ackhAck : Statement (.ackhAck) := of_word rfl rfl (by simp [rxWord, stateCode, Config.default])

theorem ackhNak : Statement (.ackhNak) := of_word rfl rfl (by simp [rxWord, stateCode, Config.default])

theorem ackhMark : Statement (.ackhMark) := of_word rfl rfl (by simp [rxWord, stateCode, Config.default])

theorem ackhOther (b : Byte) : Statement (.ackhOther b) := of_word rfl rfl (of_state .waitAck b (by decide))

theorem mframe (a : Addr) (c : Byte) (data : List Byte) : Statement (.mframe a c data) := of_word rfl rfl (by simp [Config.default])

theorem sframe (c : Byte) (data : List Byte) : Statement (.sframe c data) := of_word rfl rfl (by simp [Config.default])

theorem ackbyte : Statement (.ackbyte) := of_word rfl rfl (by simp [Config.default])

theorem nakbyte : Statement (.nakbyte) := of_word rfl rfl (by simp [Config.default])

theorem setack (a : Addr) (en : Bool) : Statement (.setack a en) := of_word rfl rfl (by simp)

theorem enq (a : Addr) (t : Byte) (p : List Byte) : Statement (.enq a t p) := of_word rfl rfl (by simp)

theorem setprov (a : Addr) (t : Byte) (pid : ProviderId) : Statement (.setprov a t pid) := of_word rfl rfl (by simp)

theorem setconst (a : Addr) (t : Byte) (p : List Byte) : Statement (.setconst a t p) := of_word rfl rfl (by simp)

theorem addlsn (a : Addr) (c : Byte) (lid : ListenerId) : Statement (.addlsn a c lid) := of_word rfl rfl (by simp)

theorem refresh (e : Endpoint) (now : Nat) : Statement (.refresh e now) := of_word rfl rfl (by simp)

theorem sweep (now : Nat) : Statement (.sweep now) := of_word rfl rfl (by simp)

theorem connect : Statement (.connect) := of_word rfl rfl (by simp)

theorem disconnect : Statement (.disconnect) := of_word rfl rfl (by simp)

theorem connected : Statement (.connected) := of_word rfl rfl (by simp)

theorem loop : Statement (.loop) := of_word rfl rfl (by simp)

theorem inprog : Statement (.inprog) := of_word rfl rfl (by simp)

theorem consume (b : Byte) : Statement (.consume b) := of_word rfl rfl (by simp)

theorem onframe (cb : CallbackId) : Statement (.onframe cb) := of_word rfl rfl (by simp)

theorem ontoken (cb : CallbackId) : Statement (.ontoken cb) := of_word rfl rfl (by simp)

theorem csum (bs : List Byte) : Statement (.csum bs) := trivial

theorem csumok (bs : List Byte) (k : Byte) : Statement (.csumok bs k) := trivial

theorem mfvalid (f : List Byte) : Statement (.mfvalid f) := trivial

theorem sfvalid (f : List Byte) : Statement (.sfvalid f) := trivial

theorem mkmaster (a : Addr) (c : Byte) (data : List Byte) : Statement (.mkmaster a c data) := trivial

theorem mkslave (c : Byte) (data : List Byte) : Statement (.mkslave c data) := trivial

theorem dispatch : Statement (.dispatch) := trivial

theorem ackh (b : Byte) : Statement (.ackh b) := trivial

theorem complete (t : Byte) : Statement (.complete t) := trivial

theorem sendbytes (p : List Byte) : Statement (.sendbytes p) := trivial

theorem sendack : Statement (.sendack) := trivial

theorem sendnak : Statement (.sendnak) := trivial

theorem tokenpoll (a : Addr) (c : Byte) : Statement (.tokenpoll a c) := trivial

theorem fanout (tr : List Byte) : Statement (.fanout tr) := trivial

theorem lsndispatch (tr : List Byte) : Statement (.lsndispatch tr) := trivial

theorem dedup (p : List Byte) : Statement (.dedup p) := trivial

theorem broadcast (tr : List Byte) : Statement (.broadcast tr) := trivial

end Sys2Proof.Laws.TableRow
end

