-- ==== Sys2Proof/Tests/Slice0.lean ====
section
/-! SUPPORT. The model's own tests. Expected results are the vectors of 95_test_vectors.md (their ids stand in the
docstrings) or hand-worked from the rule named. The last part holds, for every obligation that has hypotheses, a
concrete input that meets them. -/

namespace Sys2Proof.Tests

open Sys2Proof Sys2Proof.Machine

/-! ### Small states and views -/

/-- A state of the parser session, all tables empty, under the default configuration. -/
def at' (st : ParserState) (cur sorg : Nat) (prev : Byte) (mem : List Host.Cell) : State :=
  { State.reset with st := st, cur := cur, sorg := sorg, prev := prev, mem := mem }

/-- Idle, with window byte `prev`. -/
def idleAt (prev : Byte) : State := at' .waitStart 0 0 prev []

/-- Poll69 (K5b) but for its last byte, 49. -/
def poll69 : State := at' .waitData 5 0 0 [(0, 0x5C), (2, 0x20), (3, 0x69)]

/-- The frame of K5 but for its last byte, 49. -/
def data68 : State :=
  at' .waitData 7 0 0 [(0, 0x5C), (2, 0x20), (3, 0x68), (4, 2), (5, 1), (6, 2)]

/-- After Poll69 to a foreign address. -/
def slaveWait : State := at' .waitStartSlave 6 0 0 [(0, 0x5C), (2, 0x20), (3, 0x69), (5, 0x49)]

/-- Inside a slave frame after Poll69: `C0 69 02 44 9C` of K6 has arrived (V2). -/
def slaveData : State :=
  at' .waitDataSlave 11 6 0 [(0, 0x5C), (2, 0x20), (3, 0x69), (5, 0x49), (6, 0xC0), (7, 0x69),
    (8, 2), (9, 0x44), (10, 0x9C)]

/-- After the frame of K5 to a foreign address (V1). -/
def ackWait : State :=
  at' .waitAck 8 0 0 [(0, 0x5C), (2, 0x20), (3, 0x68), (4, 2), (5, 1), (6, 2), (7, 0x49)]

/-- An exchange that has filled the buffer (V11d). -/
def full : State := { ackWait with cur := 257 }

/-- Address 0x0020 impersonated. -/
def mine (s : State) : State := { s with ackset := [0x20] }

/-- The entry of (0x0020, 69). -/
def withEntry (s : State) (e : ReqEntry) : State := { s with req := [(⟨0x20, 0x69⟩, e)] }

/-- The payload of K6. -/
def k6 : List Byte := [0xC0, 0x69, 2, 0x44, 0x9C, 0xB3]

/-- A configuration with a static target (P4). -/
def cfg4 : Config := { Config.default with staticTargets := [7] }

/-- The next state's value under `f`, if there is a next state. -/
def look {α : Type} (f : State → α) : Result → Option α
  | .next t => some (f t)
  | .fault _ => none
  | .refused _ => none

/-- Why an operation was refused. -/
def refusal : Result → Option Refusal
  | .refused r => some r
  | .next _ => none
  | .fault _ => none

/-- `st/cur/sorg/prev`, and the events. -/
structure Seen where
  st : ParserState
  cur : Nat
  sorg : Nat
  prev : Byte
  events : List Event
deriving DecidableEq, Repr

/-- What a vector shows of a state. -/
def seen (s : State) : Seen := ⟨s.st, s.cur, s.sorg, s.prev, s.trace⟩

/-- `TX[p]`: the six events, SETTLE = 1. -/
def tx (p : List Byte) : List Event :=
  [.dir true, .delay 1, .write p, .flush, .delay 1, .dir false]

/-- What the decoder reads. -/
def decoded (s : State) (inp : Input) : Option Instr := (decodeInput s inp).toOption

/-! ### WellFormed: one ill-formed term for each check -/

theorem test_wf_ovf : (Instr.ovf .waitStart 0).wf Config.default = false := by decide
theorem test_wf_wsStart : (Instr.wsStart 0x5C).wf Config.default = false := by decide
theorem test_wf_wssOther : (Instr.wssOther 0xC0).wf Config.default = false := by decide
theorem test_wf_ackhOther_ack : (Instr.ackhOther 0x06).wf Config.default = false := by decide
theorem test_wf_ackhOther_nak : (Instr.ackhOther 0x15).wf Config.default = false := by decide
theorem test_wf_ackhOther_mark : (Instr.ackhOther 0x5C).wf Config.default = false := by decide
theorem test_wf_mframe_length :
    (Instr.mframe 0x20 0 (List.replicate 123 0)).wf Config.default = false := by simp [Instr.wf, maxData]
theorem test_wf_mframe_address : (Instr.mframe 0x5C20 0 []).wf Config.default = false := by decide
theorem test_wf_sframe :
    (Instr.sframe 0 (List.replicate 256 0)).wf Config.default = false := by decide +kernel
theorem test_wf_mkmaster :
    (Instr.mkmaster 0x20 0 (List.replicate 123 0)).wf Config.default = false := by simp [Instr.wf, maxData]
theorem test_wf_mkslave :
    (Instr.mkslave 0 (List.replicate 256 0)).wf Config.default = false := by decide +kernel
theorem test_wf_sendbytes : (Instr.sendbytes []).wf Config.default = false := by decide
/-- The longest legal frames pass. -/
theorem test_wf_boundary :
    (Instr.mframe 0xC020 0 (List.replicate 122 0)).wf Config.default = true ∧
    (Instr.sframe 0 (List.replicate 255 0)).wf Config.default = true := by
  simp [Instr.wf, maxData, Config.default]
/-- R6: `M` = 0, and a buffer of 256 bytes. -/
theorem test_wf_config :
    Config.legal { Config.default with masterStart := 0 } = false ∧
    Config.legal { Config.default with bufCap := 256 } = false ∧
    Config.legal { Config.default with slaveStart := 0x15 } = false ∧
    Config.legal { Config.default with subst := 0x5C } = false ∧
    Config.legal { Config.default with queueDepth := 0 } = false := by decide

/-! ### Decoding: words written out from the encodings of R61 to R66 and R72 -/

/-- The 11-bit word, `st` in bits 10:8 and the byte in bits 7:0: 010_0101_1100 is `WaitData`, 5C; states 5 to 7
are not decoded (R11). -/
theorem test_decode_rxWord :
    (decodeRxWord 0b01001011100).toOption = some (.waitData, 0x5C) ∧
    (decodeRxWord 0b10011111111).toOption = some (.waitAck, 0xFF) ∧
    (decodeRxWord 0b10100000000).toOption = none ∧
    (decodeRxWord 0b100000000000).toOption = none := by decide

theorem test_decode_ovf : decoded full (.rx 0xAB) = some (.ovf .waitAck 0xAB) := by decide
theorem test_decode_wsDbl : decoded (idleAt 0x5C) (.rx 0x5C) = some .wsDbl := by decide
theorem test_decode_wsStart : decoded (idleAt 0x5C) (.rx 0x20) = some (.wsStart 0x20) := by decide
theorem test_decode_wsSlide : decoded (idleAt 0) (.rx 0x5C) = some (.wsSlide 0x5C) := by decide
theorem test_decode_wdAppend : decoded data68 (.rx 0x49) = some (.wdDataObs 0x49) ∧
    decoded { data68 with cur := 6 } (.rx 2) = some (.wdAppend 2) := by decide
theorem test_decode_wdBadlen :
    decoded { poll69 with cur := 4 } (.rx 0x7B) = some (.wdBadlen 0x7B) ∧
    decoded { poll69 with cur := 4 } (.rx 0x7A) = some (.wdAppend 0x7A) := by decide
theorem test_decode_wdBadsum : decoded data68 (.rx 0xB6) = some (.wdBadsum 0xB6) := by decide
theorem test_decode_wdPollAns :
    decoded (withEntry (mine poll69) ⟨[k6], .none⟩) (.rx 0x49) = some (.wdPollAns 0x49) := by decide
theorem test_decode_wdPollAck : decoded (mine poll69) (.rx 0x49) = some (.wdPollAck 0x49) := by
  decide
theorem test_decode_wdDataAck : decoded (mine data68) (.rx 0x49) = some (.wdDataAck 0x49) := by
  decide
theorem test_decode_wdPollObs : decoded poll69 (.rx 0x49) = some (.wdPollObs 0x49) := by decide
theorem test_decode_wssStart : decoded slaveWait (.rx 0xC0) = some .wssStart := by decide
theorem test_decode_wssOther : decoded slaveWait (.rx 0x06) = some (.wssOther 0x06) := by decide
theorem test_decode_wdsAppend :
    decoded { slaveData with cur := 10 } (.rx 0x9C) = some (.wdsAppend 0x9C) := by decide
theorem test_decode_wdsDone : decoded slaveData (.rx 0xB3) = some (.wdsDone 0xB3) := by decide
theorem test_decode_ackh :
    decoded ackWait (.rx 0x06) = some .ackhAck ∧ decoded ackWait (.rx 0x15) = some .ackhNak ∧
    decoded ackWait (.rx 0x5C) = some .ackhMark ∧
    decoded ackWait (.rx 0x77) = some (.ackhOther 0x77) := by decide

/-- R61: `5C 00 20 68 02 01 02 49` (K5). -/
theorem test_decode_mframe :
    decoded State.reset (.wire [0x5C, 0x00, 0x20, 0x68, 0x02, 0x01, 0x02, 0x49]) =
      some (.mframe 0x0020 0x68 [1, 2]) := by decide
/-- R62: `C0 69 02 44 9C B3` (K6). -/
theorem test_decode_sframe :
    decoded State.reset (.wire [0xC0, 0x69, 0x02, 0x44, 0x9C, 0xB3]) =
      some (.sframe 0x69 [0x44, 0x9C]) := by decide
theorem test_decode_sentinels :
    decoded State.reset (.wire [0x06]) = some .ackbyte ∧
    decoded State.reset (.wire [0x15]) = some .nakbyte ∧
    decoded State.reset (.wire [0x07]) = none ∧ decoded State.reset (.wire []) = none := by decide

theorem test_decode_setack :
    decoded State.reset (.call ⟨0x01, [0x20, 1], []⟩) = some (.setack 0x20 true) ∧
    decoded State.reset (.call ⟨0x01, [0x20, 2], []⟩) = none := by decide
theorem test_decode_enq :
    decoded State.reset (.call ⟨0x02, [0x20, 0x69], k6⟩) = some (.enq 0x20 0x69 k6) := by decide
theorem test_decode_setprov :
    decoded State.reset (.call ⟨0x03, [0x20, 0x69, 4], []⟩) = some (.setprov 0x20 0x69 4) := by
  decide
theorem test_decode_setconst :
    decoded State.reset (.call ⟨0x04, [0x20, 0x6B], k6⟩) = some (.setconst 0x20 0x6B k6) := by
  decide
theorem test_decode_addlsn :
    decoded State.reset (.call ⟨0x05, [0x20, 0x68, 9], []⟩) = some (.addlsn 0x20 0x68 9) := by
  decide
theorem test_decode_refresh :
    decoded State.reset (.call ⟨0x06, [3, 1000], []⟩) = some (.refresh 3 1000) := by decide
theorem test_decode_sweep :
    decoded State.reset (.call ⟨0x07, [4001], []⟩) = some (.sweep 4001) := by decide
theorem test_decode_bits :
    decoded State.reset (.call ⟨0x08, [], []⟩) = some .connect ∧
    decoded State.reset (.call ⟨0x09, [], []⟩) = some .disconnect ∧
    decoded State.reset (.call ⟨0x0A, [], []⟩) = some .connected ∧
    decoded State.reset (.call ⟨0x0B, [], []⟩) = some .loop ∧
    decoded State.reset (.call ⟨0x0C, [], []⟩) = some .inprog := by decide
theorem test_decode_consume :
    decoded State.reset (.call ⟨0x0D, [0x5C], []⟩) = some (.consume 0x5C) ∧
    decoded State.reset (.call ⟨0x0D, [256], []⟩) = none := by decide
theorem test_decode_ports :
    decoded State.reset (.call ⟨0x0E, [1], []⟩) = some (.onframe 1) ∧
    decoded State.reset (.call ⟨0x0F, [2], []⟩) = some (.ontoken 2) := by decide
/-- R170: the command set is closed. -/
theorem test_decode_closed :
    decoded State.reset (.call ⟨0x00, [], []⟩) = none ∧
    decoded State.reset (.call ⟨0x10, [], []⟩) = none := by decide

/-- The host's entry: a table word placed in the reset state is the operation the next step runs. -/
theorem test_withFetchWord :
    look seen (step (State.reset.withFetchWord 16 0x45C)) =
      look seen (exec .ackhMark (enterState State.reset .waitAck 0x5C)) ∧
    look (fun t => t.connected) (step (State.reset.withFetchWord 8 0x08)) = some true ∧
    look (fun t => t.rxq) (step (State.reset.withFetchWord 8 0x5C)) =
      some [0x5C, 0, 0, 0, 0, 0] := by decide

/-! ### One step of each operation -/

/-- V11d: the ack meets a full buffer; it is not part of the transcript and slides into the window. -/
theorem test_ovf :
    look (fun t => (t.st, t.cur, t.prev, t.trace.map Event.isLog)) (exec (.ovf .waitAck 6) full) =
      some (.waitStart, 0, 6, [true, false]) := by decide +kernel
/-- V11a: a marker that meets a full buffer arms the window. -/
theorem test_ovf_mark :
    look (fun t => (t.st, t.prev)) (exec (.consume 0x5C) full) = some (.waitStart, 0x5C) := by decide
/-- V8. -/
theorem test_wsDbl :
    look seen (exec .wsDbl (idleAt 0x5C)) = some ⟨.waitStart, 0, 0, 0x5C, []⟩ := by decide
/-- V16: the address high byte may equal `S`. -/
theorem test_wsStart :
    look (fun t => (seen t, t.bufSlice 0 2)) (exec (.wsStart 0xC0) (idleAt 0x5C)) =
      some (⟨.waitData, 2, 0, 0xC0, []⟩, [0x5C, 0xC0]) := by decide
/-- V8: 11. -/
theorem test_wsSlide :
    look seen (exec (.wsSlide 0x11) (idleAt 0)) = some ⟨.waitStart, 0, 0, 0x11, []⟩ := by decide
/-- V12b: 122 is a legal length. -/
theorem test_wdAppend :
    look seen (exec (.wdAppend 0x7A) { poll69 with cur := 4 }) = some ⟨.waitData, 5, 0, 0, []⟩ := by
  decide
/-- P1: a doubled marker inside the data does not restart framing. -/
theorem test_wdAppend_marker :
    look seen (exec (.wdAppend 0x5C) { data68 with cur := 5 }) = some ⟨.waitData, 6, 0, 0, []⟩ := by
  decide
/-- V12. -/
theorem test_wdBadlen :
    look seen (exec (.wdBadlen 0x7B) { poll69 with cur := 4 }) =
      some ⟨.waitStart, 0, 0, 0,
        [.log .malformedFrame, .frameReceived [0x5C, 0, 0x20, 0x69, 0x7B]]⟩ := by decide
/-- V6: no nak, though the address is impersonated. -/
theorem test_wdBadsum :
    look seen (exec (.wdBadsum 0xB6) (mine data68)) =
      some ⟨.waitStart, 0, 0, 0,
        [.log .checksumMismatch, .frameReceived [0x5C, 0, 0x20, 0x68, 2, 1, 2, 0xB6]]⟩ := by decide
/-- V13b: a raw marker is no checksum, and does not arm the window. -/
theorem test_wdBadsum_raw :
    look seen (exec (.consume 0x5C) (at' .waitData 5 0 0 [(0, 0x5C), (2, 0x20), (3, 0x7C)])) =
      some ⟨.waitStart, 0, 0, 0,
        [.log .checksumMismatch, .frameReceived [0x5C, 0, 0x20, 0x7C, 0, 0x5C]]⟩ := by decide
/-- V13: the substitute is accepted. -/
theorem test_wdValid :
    look seen (exec (.wdValid 0xC5) (at' .waitData 5 0 0 [(0, 0x5C), (2, 0x20), (3, 0x7C)])) =
      some ⟨.waitStartSlave, 6, 0, 0, []⟩ := by decide
/-- V3: the payload is popped, sent and kept in the transcript; `sorg` stays 0. -/
theorem test_wdPollAns :
    look (fun t => (seen t, t.bufSlice 6 12, t.req))
      (exec (.wdPollAns 0x49) (withEntry (mine poll69) ⟨[k6], .none⟩)) =
      some (⟨.waitAck, 12, 0, 0, tx k6⟩, k6, []) := by decide
/-- P4: the queue goes before the constant, which stays. -/
theorem test_wdPollAns_const :
    look (fun t => (t.trace, t.req))
      (exec (.wdPollAns 0x49) (withEntry (mine poll69) ⟨[], .const k6⟩)) =
      some (tx k6, [(⟨0x20, 0x69⟩, ⟨[], .const k6⟩)]) := by decide
/-- V4. -/
theorem test_wdPollAck :
    look seen (exec (.wdPollAck 0x49) (mine poll69)) =
      some ⟨.waitStart, 0, 0, 0, tx [6] ++ [.frameReceived [0x5C, 0, 0x20, 0x69, 0, 0x49, 6]]⟩ := by
  decide
/-- V5. -/
theorem test_wdDataAck :
    look seen (exec (.wdDataAck 0x49) (mine data68)) =
      some ⟨.waitStart, 0, 0, 0,
        tx [6] ++ [.frameReceived [0x5C, 0, 0x20, 0x68, 2, 1, 2, 0x49, 6]]⟩ := by decide
/-- V19: a poll to a foreign address pops nothing. -/
theorem test_wdPollObs :
    look (fun t => (seen t, t.req)) (exec (.wdPollObs 0x49) (withEntry poll69 ⟨[k6], .none⟩)) =
      some (⟨.waitStartSlave, 6, 0, 0, []⟩, [(⟨0x20, 0x69⟩, ⟨[k6], .none⟩)]) := by decide
/-- V1. -/
theorem test_wdDataObs :
    look seen (exec (.wdDataObs 0x49) data68) = some ⟨.waitAck, 8, 0, 0, []⟩ := by decide
/-- V2. -/
theorem test_wssStart :
    look seen (exec .wssStart slaveWait) = some ⟨.waitDataSlave, 7, 6, 0, []⟩ := by decide
/-- V10c. -/
theorem test_wssOther :
    look seen (exec (.wssOther 0x77) slaveWait) =
      some ⟨.waitStart, 0, 0, 0,
        [.log .unexpectedAckByte, .frameReceived [0x5C, 0, 0x20, 0x69, 0, 0x49, 0x77]]⟩ := by decide
/-- V10b. -/
theorem test_wssOther_mark :
    look seen (exec (.wssOther 0x5C) slaveWait) =
      some ⟨.waitStart, 0, 0, 0x5C, [.frameReceived [0x5C, 0, 0x20, 0x69, 0, 0x49]]⟩ := by decide
/-- V10d: an `ACK` value inside a slave frame is data. -/
theorem test_wdsAppend :
    look seen (exec (.wdsAppend 6) { slaveData with cur := 7 }) =
      some ⟨.waitDataSlave, 8, 6, 0, []⟩ := by decide
/-- V2b: the slave's checksum is not looked at. -/
theorem test_wdsDone :
    look seen (exec (.wdsDone 0xB4) slaveData) = some ⟨.waitAck, 12, 6, 0, []⟩ := by decide
/-- V1. -/
theorem test_wa :
    look seen (exec (.wa 6) ackWait) =
      some ⟨.waitStart, 0, 0, 0, [.frameReceived [0x5C, 0, 0x20, 0x68, 2, 1, 2, 0x49, 6]]⟩ := by
  decide
theorem test_ackhAck : look seen (exec .ackhAck ackWait) = look seen (exec (.wa 6) ackWait) := by
  decide
/-- V10: a bare nak to a poll. -/
theorem test_ackhNak :
    look seen (exec .ackhNak slaveWait) =
      some ⟨.waitStart, 0, 0, 0, [.frameReceived [0x5C, 0, 0x20, 0x69, 0, 0x49, 0x15]]⟩ := by decide
/-- V7: the marker is rolled back and seeds the window. -/
theorem test_ackhMark :
    look seen (exec .ackhMark ackWait) =
      some ⟨.waitStart, 0, 0, 0x5C, [.frameReceived [0x5C, 0, 0x20, 0x68, 2, 1, 2, 0x49]]⟩ := by
  decide
/-- V9. -/
theorem test_ackhOther :
    look seen (exec (.ackhOther 0x77) ackWait) =
      some ⟨.waitStart, 0, 0, 0, [.log .unexpectedAckByte,
        .frameReceived [0x5C, 0, 0x20, 0x68, 2, 1, 2, 0x49, 0x77]]⟩ := by decide
theorem test_ackh : look seen (exec (.ackh 0x15) slaveWait) = look seen (exec .ackhNak slaveWait) := by
  decide
/-- R66: a row presented where another one is selected. -/
theorem test_notSelected : refusal (exec .wsDbl ackWait) = some .notSelected := by decide

/-- R61, R22: the frame waits in the stream. -/
theorem test_mframe :
    look (fun t => t.rxq) (exec (.mframe 0x20 0x69 []) State.reset) =
      some [0x5C, 0x00, 0x20, 0x69, 0x00, 0x49] := by decide
theorem test_sframe :
    look (fun t => t.rxq) (exec (.sframe 0x6B []) State.reset) = some [0xC0, 0x6B, 0x00, 0x6B] := by
  decide
theorem test_ackbyte : look (fun t => t.rxq) (exec .ackbyte State.reset) = some [6] := by decide
theorem test_nakbyte :
    look (fun t => t.rxq) (exec .nakbyte { State.reset with rxq := [1] }) = some [1, 0x15] := by
  decide

/-- X15. -/
theorem test_setack :
    look (fun t => t.ackset) (exec (.setack 0x20 true) (mine State.reset)) = some [0x20] ∧
    look (fun t => t.ackset) (exec (.setack 0x20 false) (mine State.reset)) = some [] := by decide
/-- X7: the queue is full, the oldest goes. -/
theorem test_enq :
    look (fun t => (t.entry ⟨0x20, 0x69⟩).queue)
      (exec (.enq 0x20 0x69 [4]) (withEntry State.reset ⟨[[1], [2], [3]], .none⟩)) =
      some [[2], [3], [4]] := by decide
/-- V18: 128 bytes are taken, 129 and 0 refused. -/
theorem test_enq_length :
    look (fun t => t.answer) (exec (.enq 0x20 0x69 (List.replicate 128 0)) State.reset) =
      some .done ∧
    look (fun t => (t.answer, t.req)) (exec (.enq 0x20 0x69 (List.replicate 129 0)) State.reset) =
      some (.refused, []) ∧
    look (fun t => (t.answer, t.req)) (exec (.enq 0x20 0x69 []) State.reset) =
      some (.refused, []) := by decide +kernel
/-- X8. -/
theorem test_setprov :
    look (fun t => (t.entry ⟨0x20, 0x69⟩)) (exec (.setprov 0x20 0x69 1)
      (withEntry State.reset ⟨[[1]], .const k6⟩)) = some ⟨[[1]], .provider 1⟩ := by decide
theorem test_setconst :
    look (fun t => (t.entry ⟨0x20, 0x6B⟩)) (exec (.setconst 0x20 0x6B k6) State.reset) =
      some ⟨[], .const k6⟩ ∧
    look (fun t => t.answer) (exec (.setconst 0x20 0x6B []) State.reset) = some .refused := by decide
theorem test_addlsn :
    look (fun t => t.lsn) (exec (.addlsn 0x20 0x68 2) { State.reset with lsn := [(⟨0x20, 0x68⟩, 1)] }) =
      some [(⟨0x20, 0x68⟩, 2)] := by decide
/-- X14. -/
theorem test_refresh :
    look (fun t => t.tgt) (exec (.refresh 1 5000) { State.reset with tgt := [(2, 2500), (7, 4001)] }) =
      some [(1, 5000), (2, 2500), (7, 4001)] := by decide
/-- X12: idle for exactly the time-out is kept. -/
theorem test_sweep :
    look (fun t => t.tgt) (exec (.sweep 4000)
      { State.resetWith cfg4 with tgt := [(1, 1000), (2, 2500)] }) =
      some [(1, 1000), (2, 2500), (7, 4000)] := by decide
/-- X13. -/
theorem test_sweep_expire :
    look (fun t => t.tgt) (exec (.sweep 4001)
      { State.resetWith cfg4 with tgt := [(1, 1000), (2, 2500), (7, 4000)] }) =
      some [(2, 2500), (7, 4001)] := by decide
theorem test_connect : look (fun t => t.connected) (exec .connect State.reset) = some true := by decide
/-- H3: disconnecting leaves the registers. -/
theorem test_disconnect :
    look (fun t => (t.connected, t.st, t.cur)) (exec .disconnect { poll69 with connected := true }) =
      some (false, .waitData, 5) := by decide
theorem test_connected :
    look (fun t => t.answer) (exec .connected State.reset) = some (.bit false) := by decide
/-- H1: nothing is consumed while disconnected. -/
theorem test_loop_off :
    look (fun t => t.rxq) (exec .loop { State.reset with rxq := [0x5C] }) = some [0x5C] := by decide
/-- H1: all six bytes are consumed. -/
theorem test_loop_on :
    look (fun t => (seen t, t.rxq)) (exec .loop
      { State.reset with rxq := [0x5C, 0, 0x20, 0x69, 0, 0x49], connected := true }) =
      some (⟨.waitStartSlave, 6, 0, 0, []⟩, []) := by decide
/-- H1, H2. -/
theorem test_inprog :
    look (fun t => t.answer) (exec .inprog { State.reset with rxq := [6] }) = some (.bit true) ∧
    look (fun t => t.answer) (exec .inprog slaveWait) = some (.bit true) ∧
    look (fun t => t.answer) (exec .inprog (idleAt 0x5C)) = some (.bit false) := by decide
/-- H3: CONSUME does not look at `connected`. -/
theorem test_consume :
    look seen (exec (.consume 0x49) poll69) = some ⟨.waitStartSlave, 6, 0, 0, []⟩ := by decide
theorem test_onframe :
    look (fun t => t.frameBound) (exec (.onframe 3) { State.reset with frameBound := false }) =
      some true := by decide
theorem test_ontoken :
    look (fun t => t.tokenBound) (exec (.ontoken 3) { State.reset with tokenBound := false }) =
      some true := by decide

/-- K1, K2, K3, K3b, K3d. -/
theorem test_csum :
    csum Config.default [] = 0 ∧ csum Config.default [0x00, 0x20, 0x69, 0x00] = 0x49 ∧
    csum Config.default [0x00, 0x20, 0x7C, 0x00] = 0xC5 ∧
    csum Config.default [0x00, 0x20, 0xE5, 0x00] = 0xC5 ∧
    look (fun t => t.answer) (exec (.csum [0x5C, 0x5C]) State.reset) = some (.byte 0) := by decide
/-- K4, K4b, K4c. -/
theorem test_csumok :
    look (fun t => t.answer) (exec (.csumok [0x00, 0x20, 0x7C, 0x00] 0xC5) State.reset) =
      some (.bit true) ∧
    csumOk Config.default [0x00, 0x20, 0x7C, 0x00] 0x5C = false ∧
    csumOk Config.default [0x00, 0x20, 0x69, 0x00] 0x48 = false := by decide
/-- K7, K7b to K7d. -/
theorem test_mfvalid :
    look (fun t => t.answer) (exec (.mfvalid [0x5C, 0, 0x20, 0x68, 2, 1, 2, 0x49]) State.reset) =
      some (.bit true) ∧
    masterFrameValid Config.default [0x5C, 0x00, 0x20, 0x69, 0x00, 0x48] = false ∧
    masterFrameValid Config.default [0x5C, 0x00, 0x20, 0x69, 0x01, 0x48] = false ∧
    masterFrameValid Config.default [0x5C, 0x5C, 0x20, 0x69, 0x00, 0x15] = false := by decide
/-- K8, K8b. -/
theorem test_sfvalid :
    look (fun t => t.answer) (exec (.sfvalid k6) State.reset) = some (.bit true) ∧
    slaveFrameValid Config.default [0xC0, 0x69, 2, 0x44, 0x9C, 0xB4] = false := by decide
/-- K5e. -/
theorem test_mkmaster :
    look (fun t => t.answer) (exec (.mkmaster 0x20 0x68 [0x5C, 0x5C, 1]) State.reset) =
      some (.bytes [0x5C, 0x00, 0x20, 0x68, 0x03, 0x5C, 0x5C, 0x01, 0x4A]) := by decide
/-- K6, with the checksum not covering and covering the start byte. -/
theorem test_mkslave :
    look (fun t => t.answer) (exec (.mkslave 0x69 [0x44, 0x9C]) State.reset) = some (.bytes k6) ∧
    mkSlave { Config.default with slaveCsumIncludesStart := true } 0x69 [0x44, 0x9C] =
      [0xC0, 0x69, 0x02, 0x44, 0x9C, 0x73] := by decide
/-- V13, run as DISPATCH on the whole frame. -/
theorem test_dispatch :
    look seen (exec .dispatch { slaveWait with st := .waitData }) =
      some ⟨.waitStartSlave, 6, 0, 0, []⟩ := by decide
theorem test_complete :
    look seen (exec (.complete 0x5C) ackWait) =
      some ⟨.waitStart, 0, 0, 0x5C, [.frameReceived [0x5C, 0, 0x20, 0x68, 2, 1, 2, 0x49]]⟩ := by
  decide
/-- T1. -/
theorem test_sendbytes :
    look (fun t => t.trace) (exec (.sendbytes [0xC0, 0x69, 0, 0x69]) State.reset) =
      some (tx [0xC0, 0x69, 0, 0x69]) := by decide
/-- T2. -/
theorem test_sendack : look (fun t => t.trace) (exec .sendack State.reset) = some (tx [6]) := by decide
/-- T3. -/
theorem test_sendnak : look (fun t => t.trace) (exec .sendnak State.reset) = some (tx [0x15]) := by
  decide
/-- X9, X10. -/
theorem test_tokenpoll :
    look (fun t => (t.answer, t.entry ⟨0x20, 0x69⟩)) (exec (.tokenpoll 0x20 0x69)
      (withEntry State.reset ⟨[[1]], .const [2]⟩)) = some (.optBytes (some [1]), ⟨[], .const [2]⟩) ∧
    look (fun t => t.answer) (exec (.tokenpoll 0x20 0x69)
      (withEntry State.reset ⟨[], .const [2]⟩)) = some (.optBytes (some [2])) ∧
    look (fun t => t.answer) (exec (.tokenpoll 0x20 0x6A)
      (withEntry State.reset ⟨[[1]], .const [2]⟩)) = some (.optBytes none) := by decide
/-- X16: a wrong checksum reaches the targets, raw, and no listener. -/
theorem test_fanout :
    look (fun t => t.trace) (exec (.fanout [0x5C, 0, 0x20, 0x68, 2, 1, 2, 0xB6])
      { State.reset with lsn := [(⟨0x20, 0x68⟩, 1)], tgt := [(5, 0)] }) =
      some [.broadcast 5 [0x5C, 0, 0x20, 0x68, 2, 1, 2, 0xB6]] := by decide
/-- P1: the listener hears the data with the doubled marker made one. -/
theorem test_lsndispatch :
    look (fun t => t.trace) (exec (.lsndispatch [0x5C, 0, 0x20, 0x68, 3, 0x5C, 0x5C, 1, 0x4A, 6])
      { State.reset with lsn := [(⟨0x20, 0x68⟩, 1)] }) =
      some [.listener 1 0x20 0x68 [0x5C, 1]] := by decide
/-- X1, X3, X6. -/
theorem test_dedup :
    look (fun t => t.answer) (exec (.dedup [1, 0x5C, 0x5C, 2]) State.reset) =
      some (.bytes [1, 0x5C, 2]) ∧
    dedupBytes Config.default [0x5C, 0x5C, 0x5C] = [0x5C, 0x5C] ∧
    dedupBytes Config.default [0xC0, 0xC0, 6, 6] = [0xC0, 0xC0, 6, 6] := by decide
theorem test_broadcast :
    look (fun t => t.trace) (exec (.broadcast [1, 2]) { State.reset with tgt := [(5, 0)] }) =
      some [.broadcast 5 [1, 2]] := by decide

/-! ### Witnesses: for every obligation that has hypotheses, an input that meets them -/

/-- A state in the middle of a slave frame, with every table in use and one queue full. -/
def busy : State :=
  { withEntry (mine slaveData) ⟨[[1], [2], k6], .const k6⟩ with
    cfg := cfg4, lsn := [(⟨0x20, 0x68⟩, 1)], tgt := [(2, 40), (7, 0)], connected := true,
    rxq := [6], inputs := [.rx 0xB3] }

theorem poll69_inv : poll69.Inv := by
  constructor <;> first | decide | exact fun _ hx => absurd hx List.not_mem_nil
theorem ackWait_inv : ackWait.Inv := by
  constructor <;> first | decide | exact fun _ hx => absurd hx List.not_mem_nil
theorem mine_poll69_inv : (mine poll69).Inv := by
  constructor <;> first | decide | exact fun _ hx => absurd hx List.not_mem_nil
theorem busy_inv : busy.Inv := by
  constructor <;> first | decide | exact fun x hx => (List.mem_singleton.mp hx) ▸ (by decide)

/-- Where no provider is registered, none breaks its contract. -/
theorem no_provider_in_contract {s : State}
    (h : ∀ k pid, (s.entry k).fallback ≠ .provider pid) : s.ProvidersInContract :=
  fun k pid _ e => absurd e (h k pid)

theorem poll69_contract : poll69.ProvidersInContract :=
  no_provider_in_contract fun _ _ e => by cases e

theorem busy_contract : busy.ProvidersInContract := by
  refine no_provider_in_contract fun k pid e => ?_
  have : (busy.entry k).fallback = .const k6 ∨ (busy.entry k).fallback = .none := by
    unfold State.entry
    show (((if k = ⟨0x20, 0x69⟩ then some _ else none : Option ReqEntry).getD _).fallback = _) ∨ _
    by_cases hk : k = ⟨0x20, 0x69⟩
    · left; rw [if_pos hk]; rfl
    · right; show (((if k = ⟨0x20, 0x69⟩ then some _ else none : Option ReqEntry).getD _).fallback = _)
      rw [if_neg hk]; rfl
  rcases this with h | h <;> rw [h] at e <;> cases e

theorem test_witness_StepRunsDecodedOperation :
    busy.cfg.legal = true ∧ busy.inputs = [.rx 0xB3] ∧
    decodeInput { busy with inputs := [] } (.rx 0xB3) = .ok (.wdsDone 0xB3) := ⟨by decide, rfl, rfl⟩

theorem test_witness_StepWithoutOperation :
    State.reset.cfg.legal = true ∧ State.reset.inputs = [] ∧
    decodeWire State.reset.cfg [0x11, 0x5C] = .error .noWireFormat ∧
    decodeCall ⟨0x10, [], []⟩ = .error (.noSuchCommand 0x10) ∧
    decodeCall ⟨0x0D, [256], []⟩ = .error .operandRange := ⟨by decide, rfl, rfl, rfl, rfl⟩

/-- Both clauses at the least buffer capacity. -/
theorem test_witness_IllegalConfigurationHasNoMeaning :
    Config.legal { Config.default with bufCap := 256 } = false ∧
    Config.legal { Config.default with bufCap := 257 } = true := by decide

theorem test_witness_DecodeUndoesEncode :
    State.reset.cfg.legal = true ∧
    (Instr.mframe 0xFFFF 0xFF (List.replicate 122 0xFF)).wf Config.default = true ∧
    rowState (.mframe 0xFFFF 0xFF (List.replicate 122 0xFF)) = none ∧
    encode Config.default (.mframe 0xC020 0x69 []) = some (.wire [0x5C, 0xC0, 0x20, 0x69, 0, 0x89]) ∧
    encode Config.default (.setack 0xFFFF true) = some (.call ⟨0x01, [65535, 1], []⟩) := by
  decide +kernel

theorem test_witness_SelectedRowCarriesStateAndByte : full.cfg.legal = true := by decide
theorem test_witness_ExactlyOneRowApplies : slaveWait.cfg.legal = true := by decide

theorem test_witness_WindowSlidesAndDropsDoubledMarker :
    (idleAt 0xC5).st = .waitStart ∧ (idleAt 0xC5).prev ≠ (idleAt 0xC5).cfg.masterStart ∧
    (idleAt 0x5C).st = .waitStart ∧ (idleAt 0x5C).prev = (idleAt 0x5C).cfg.masterStart := by decide

theorem test_witness_MarkerThenOtherByteStartsFrame :
    (idleAt 0x5C).st = .waitStart ∧ (idleAt 0x5C).prev = (idleAt 0x5C).cfg.masterStart ∧
    (0xC0 : Byte) ≠ (idleAt 0x5C).cfg.masterStart := by decide

theorem test_witness_OverflowFlushesAndKeepsTheByte :
    full.cfg.legal = true ∧ full.st ≠ .waitStart ∧ full.cfg.bufCap ≤ full.cur := by decide

/-- Before the length byte, at the greatest legal length, and one byte short of the last. -/
theorem test_witness_DataByteIsAppended :
    poll69.st = .waitData ∧ poll69.cur < poll69.cfg.bufCap ∧
    ({ poll69 with cur := 3 } : State).cur < 4 ∧
    (({ poll69 with cur := 4 } : State).cur = 4 ∧ (0x7A : Byte).toNat ≤ maxData) ∧
    (5 ≤ ({ data68 with cur := 6 } : State).cur ∧
      ({ data68 with cur := 6 } : State).cur + 1 < 6 + ({ data68 with cur := 6 } : State).frameLen) := by
  decide

theorem test_witness_ImpossibleLengthIsMalformed :
    ({ poll69 with cur := 4 } : State).st = .waitData ∧ 4 < poll69.cfg.bufCap ∧
    122 < (0x7B : Byte).toNat := by decide

theorem test_witness_WrongChecksumIsFlushedSilently :
    data68.st = .waitData ∧ data68.cur < data68.cfg.bufCap ∧ data68.cur = 5 + data68.frameLen ∧
    (0xB6 : Byte) ≠ csum data68.cfg (data68.bufSlice 1 (5 + data68.frameLen)) := by decide

theorem test_frameEnds_poll69 : (mine poll69).FrameEnds 0x49 := by
  refine ⟨?_, ?_, ?_, ?_⟩ <;> decide
theorem test_frameEnds_data68 : (mine data68).FrameEnds 0x49 := by
  refine ⟨?_, ?_, ?_, ?_⟩ <;> decide

/-- A poll answered from the queue, and one answered from the constant by MAX_RESP bytes. -/
theorem test_witness_ImpersonatedPollIsAnswered :
    (withEntry (mine poll69) ⟨[k6], .none⟩).FrameEnds 0x49 ∧
    (withEntry (mine poll69) ⟨[k6], .none⟩).frameAddr ∈ (mine poll69).ackset ∧
    (withEntry (mine poll69) ⟨[k6], .none⟩).frameLen = 0 ∧
    pollAnswer (withEntry (mine poll69) ⟨[k6], .none⟩) 0x20 0x69 = .supplied k6 ∧
    pollAnswer (withEntry (mine poll69) ⟨[], .const (List.replicate 128 0)⟩) 0x20 0x69 =
      .supplied (List.replicate 128 0) ∧
    k6 ≠ [] ∧ 6 + (List.replicate 128 (0 : Byte)).length ≤ poll69.cfg.bufCap :=
  ⟨test_frameEnds_poll69, by decide, by decide, by decide, by rfl, by decide, by
    rw [List.length_replicate]; decide⟩

theorem test_witness_OverlongProviderAnswerIsRefused :
    (withEntry (mine poll69) ⟨[], .provider 4⟩).FrameEnds 0x49 ∧
    (withEntry (mine poll69) ⟨[], .provider 4⟩).frameAddr ∈ (mine poll69).ackset ∧
    (withEntry (mine poll69) ⟨[], .provider 4⟩).frameLen = 0 ∧ poll69.tokenBound = true ∧
    ((withEntry (mine poll69) ⟨[], .provider 4⟩).entry ⟨0x20, 0x69⟩).queue = [] ∧
    ((withEntry (mine poll69) ⟨[], .provider 4⟩).entry ⟨0x20, 0x69⟩).fallback = .provider 4 :=
  ⟨test_frameEnds_poll69, by decide, by decide, by decide, by decide, by decide⟩

/-- A poll with nothing, a poll with an empty queue entry, a data frame; and the least room. -/
theorem test_witness_ImpersonatedFrameIsAcked :
    (mine poll69).FrameEnds 0x49 ∧ (mine poll69).frameAddr ∈ (mine poll69).ackset ∧
    (mine poll69).cur + 2 ≤ (mine poll69).cfg.bufCap ∧ (mine poll69).frameLen = 0 ∧
    pollAnswer (mine poll69) 0x20 0x69 = .nothing ∧
    pollAnswer (withEntry (mine poll69) ⟨[[]], .none⟩) 0x20 0x69 = .supplied [] ∧
    (mine data68).FrameEnds 0x49 ∧ (mine data68).frameAddr ∈ (mine data68).ackset ∧
    (mine data68).cur + 2 ≤ (mine data68).cfg.bufCap ∧ 0 < (mine data68).frameLen :=
  ⟨test_frameEnds_poll69, by decide, by decide, by decide, by decide, by decide,
    test_frameEnds_data68, by decide, by decide, by decide⟩

theorem test_witness_ForeignFrameIsObserved :
    poll69.FrameEnds 0x49 ∧ poll69.frameAddr ∉ poll69.ackset ∧ poll69.frameLen = 0 ∧
    data68.FrameEnds 0x49 ∧ data68.frameAddr ∉ data68.ackset ∧ 0 < data68.frameLen :=
  ⟨test_frameEnds_poll69, by decide, by decide, test_frameEnds_data68, by decide, by decide⟩

theorem test_witness_ValidFrameIsDispatched :
    poll69.Inv ∧ poll69.ProvidersInContract ∧ poll69.FrameEnds 0x49 :=
  ⟨poll69_inv, poll69_contract, test_frameEnds_poll69⟩

theorem test_witness_SlaveMarkerStartsSlaveFrame :
    slaveWait.st = .waitStartSlave ∧ slaveWait.cur < slaveWait.cfg.bufCap := by decide

/-- The clauses meet at the last byte of the slave frame: `9C` is not it, `B3` is. -/
theorem test_witness_SlaveFrameIsTakenByLength :
    slaveData.st = .waitDataSlave ∧ slaveData.cur < slaveData.cfg.bufCap ∧
    10 + 1 - slaveData.sorg < (slaveData.readBuf (slaveData.sorg + 2)).toNat + 4 ∧
    3 ≤ slaveData.cur + 1 - slaveData.sorg ∧
    (slaveData.readBuf (slaveData.sorg + 2)).toNat + 4 ≤ slaveData.cur + 1 - slaveData.sorg := by
  decide

theorem test_witness_AckHandlerEndsTheExchange :
    ackWait.cfg.legal = true ∧ ({ ackWait with cur := 256 } : State).cur < ackWait.cfg.bufCap ∧
    ackWait.st = .waitAck ∧ slaveWait.st = .waitStartSlave ∧ slaveWait.cur < slaveWait.cfg.bufCap ∧
    (0x06 : Byte) ≠ slaveWait.cfg.slaveStart := by decide

theorem test_witness_AckHandlerRowsComplete :
    slaveWait.cfg.legal = true ∧ slaveWait.cur < slaveWait.cfg.bufCap ∧
    slaveWait.st = .waitStartSlave ∧ ackWait.st = .waitAck ∧
    (0x77 : Byte) ≠ slaveWait.cfg.ack ∧ (0x77 : Byte) ≠ slaveWait.cfg.nak ∧
    (0x77 : Byte) ≠ slaveWait.cfg.masterStart ∧ (0x77 : Byte) ≠ slaveWait.cfg.slaveStart := by decide

theorem test_witness_ChecksumNeverEqualsTheMarker :
    Config.default.legal = true ∧ [1, 2].Perm ([2, 1] : List Byte) ∧
    xorFold [0x00, 0x20, 0x7C, 0x00] = Config.default.masterStart ∧
    xorFold [0x00, 0x20, 0xE5, 0x00] = Config.default.subst := by decide

theorem test_witness_TransmissionIsSixEvents : ([0] : List Byte) ≠ [] := by decide

theorem test_witness_FramesAreBuiltFieldByField :
    (List.replicate 122 (0 : Byte)).length ≤ 122 ∧ (List.replicate 255 (0 : Byte)).length ≤ 255 := by
  simp

/-- A whole frame and its ack; and a transcript that begins with no valid frame. -/
theorem test_witness_ListenerHearsValidFramesOnly :
    ([0x5C, 0, 0x20, 0x68, 2, 1, 2, 0x49, 6] : List Byte) =
      mkMaster Config.default 0x20 0x68 [1, 2] ++ [6] ∧
    addrHi 0x20 ≠ Config.default.masterStart ∧
    ∀ f rest : List Byte, [0x5C, 0, 0x20, 0x68, 0x7B] = f ++ rest →
      masterFrameValid Config.default f = false := by
  refine ⟨by decide, by decide, fun f rest h => ?_⟩
  have : f.length ≤ 5 := by
    have := congrArg List.length h
    simp at this
    omega
  have h6 : ¬6 ≤ f.length := by omega
  simp [masterFrameValid, h6]

theorem test_witness_EnqPushesAndDropsTheOldest :
    ([] : List Byte).length = 0 ∧ 128 < (List.replicate 129 (0 : Byte)).length ∧
    1 ≤ [(0 : Byte)].length ∧ (List.replicate 128 (0 : Byte)).length ≤ 128 := by
  simp only [List.length_replicate]; decide

theorem test_witness_QueueKeepsTheMostRecent :
    1 ≤ State.reset.cfg.queueDepth ∧
    ((withEntry State.reset ⟨[[1], [2], [3]], .none⟩).entry ⟨0x20, 0x69⟩).queue.length ≤ 3 ∧
    ∀ p ∈ [[1], [2], [3], [(4 : Byte)]], 1 ≤ p.length ∧ p.length ≤ 128 := by decide

theorem test_witness_FallbackIsReplaced :
    ([] : List Byte).length = 0 ∧ 128 < (List.replicate 129 (0 : Byte)).length ∧
    1 ≤ k6.length ∧ k6.length ≤ 128 := by simp [k6]

/-- A queue entry; an empty queue with no fallback, a constant, a provider. -/
theorem test_witness_TokenPollTriesQueueThenFallback :
    State.reset.tokenBound = true ∧
    ((withEntry State.reset ⟨[[1], [2]], .none⟩).entry ⟨0x20, 0x69⟩).queue = [1] :: [[2]] ∧
    State.reset.entry ⟨0x20, 0x69⟩ = ⟨[], .none⟩ ∧
    (withEntry State.reset ⟨[], .const [1]⟩).entry ⟨0x20, 0x69⟩ = ⟨[], .const [1]⟩ ∧
    (withEntry State.reset ⟨[], .provider 4⟩).entry ⟨0x20, 0x69⟩ = ⟨[], .provider 4⟩ := by decide

theorem test_witness_TargetsAreRefreshedAndSwept : TableWf id busy.tgt := by decide

theorem test_witness_PortsAreBoundToTheMultiplexer :
    ({ poll69 with frameBound := false } : State).frameBound = false ∧
    ({ poll69 with tokenBound := false } : State).tokenBound = false := by decide

theorem test_witness_ConsumeIsTotal : busy.Inv ∧ busy.ProvidersInContract :=
  ⟨busy_inv, busy_contract⟩

theorem test_witness_LoopIsConsumeOfEveryWaitingByte :
    State.reset.connected = false ∧ busy.connected = true ∧ busy.Inv ∧ busy.ProvidersInContract :=
  ⟨rfl, rfl, busy_inv, busy_contract⟩

theorem test_witness_WireFormatsArriveByteByByte :
    (List.replicate 255 (0 : Byte)).length ≤ 255 := by
  rw [List.length_replicate]

theorem test_witness_ResetMeetsTheInvariant : cfg4.legal = true := by decide

theorem test_witness_EveryStepKeepsTheInvariant : busy.Inv ∧ ∃ t, step busy = .next t :=
  ⟨busy_inv, _, rfl⟩

theorem test_witness_EveryOperationKeepsMemoryCanonical :
    Memory.wf slaveData.mem ∧ ∃ t, exec (.wdsDone 0xB3) slaveData = .next t :=
  ⟨by decide, _, rfl⟩

theorem test_witness_ConfigurationNeverChanges :
    (∃ t, exec (.sweep 9) State.reset = .next t) ∧ ∃ t, step busy = .next t :=
  ⟨⟨_, rfl⟩, _, rfl⟩

/-- Two states that differ in a stale byte. -/
theorem test_witness_StaleBytesAreNeverRead :
    StaleEq (idleAt 0x5C) { idleAt 0x5C with mem := [(0, 7), (200, 1)] } :=
  ⟨rfl, fun i hi => absurd hi (Nat.not_lt_zero i)⟩

theorem test_witness_BusCannotTouchTheHostsTables : ∃ t, exec (.consume 0xB3) busy = .next t :=
  ⟨_, rfl⟩

theorem test_witness_ParserFollowsTheTransitionGraph :
    busy.cfg.legal = true ∧ (∃ t, exec (.consume 0xB3) busy = .next t) ∧
    full.cfg.legal = true ∧ full.overflowing = true ∧ ∃ t, exec (.consume 6) full = .next t :=
  ⟨by decide, ⟨_, rfl⟩, by decide, by decide, _, rfl⟩

/-- Both cases: a foreign poll, on which nothing is sent, and an impersonated one, on which the ack is (V4). -/
theorem test_witness_TransmitsOnlyWhenImpersonating :
    (poll69.Inv ∧ look (fun t => t.trace) (exec (.consume 0x49) poll69) = some []) ∧
    (mine poll69).Inv ∧ (mine poll69).FrameEnds 0x49 ∧
    (mine poll69).frameAddr ∈ (mine poll69).ackset ∧
    look (fun t => t.trace.filter Event.isTransport) (exec (.consume 0x49) (mine poll69)) =
      some (tx [6]) :=
  ⟨⟨poll69_inv, by decide⟩, mine_poll69_inv, test_frameEnds_poll69, by decide, by decide⟩

theorem test_witness_ErrorsAreRaisedExactlyWhereStated :
    ackWait.Inv ∧ ∃ t, exec (.consume 0x77) ackWait = .next t := ⟨ackWait_inv, _, rfl⟩

theorem test_witness_TranscriptsBeginWithAFrameStart :
    ackWait.Inv ∧ ∃ t, exec (.consume 0x06) ackWait = .next t := ⟨ackWait_inv, _, rfl⟩

theorem test_witness_ParserReturnsToIdle :
    busy.Inv ∧ busy.ProvidersInContract ∧
    (List.replicate 258 (0xAB : Byte)).length = busy.cfg.bufCap + 1 :=
  ⟨busy_inv, busy_contract, by rw [List.length_replicate]; rfl⟩

/-- The longest data field, and an address whose high byte is `S`. -/
theorem test_witness_ValidFrameReachesDispatch :
    State.reset.cfg.legal = true ∧ State.reset.st = .waitStart ∧ State.reset.cur = 0 ∧
    State.reset.prev ≠ State.reset.cfg.masterStart ∧
    addrHi 0xC020 ≠ State.reset.cfg.masterStart ∧ (List.replicate 122 (0 : Byte)).length ≤ 122 :=
  ⟨by decide, rfl, rfl, by decide, by decide, by simp⟩

/-- The longest slave frame that fits with its ack (V11c). -/
theorem test_witness_PassiveTripleIsDeliveredOnce :
    State.reset.cfg.legal = true ∧ State.reset.st = .waitStart ∧ State.reset.cur = 0 ∧
    State.reset.prev ≠ State.reset.cfg.masterStart ∧
    addrHi 0x20 ≠ State.reset.cfg.masterStart ∧ (0x20 : Addr) ∉ State.reset.ackset ∧
    (List.replicate 246 (0 : Byte)).length ≤ 255 ∧
    11 + (List.replicate 246 (0 : Byte)).length ≤ State.reset.cfg.bufCap :=
  ⟨by decide, rfl, rfl, by decide, by decide, by decide, by
    rw [List.length_replicate]; decide, by rw [List.length_replicate]; decide⟩

end Sys2Proof.Tests
end

/-! ## Scope (00_scope.md): what a step refuses, and what it does when no operation is decoded -/

namespace Sys2Proof.Machine

/-! ### Which refusals an outcome can carry -/

/-- If `o` is a refusal at all, its reason is in `R`. -/
def RefusesIn (R : Set Refusal) (o : Result) : Prop := ∀ r, o = .refused r → r ∈ R

/-- The refusals an operation raises itself: R66 (assumption 12), R148, and the operand domains (assumption 26).
The other refusals are raised by `step` alone. -/
def operationRefusals : Set Refusal := {.notSelected, .providerOutOfContract, .operandOutsideDomain}

@[simp] theorem notSelected_mem_operationRefusals :
    Refusal.notSelected ∈ operationRefusals := by simp [operationRefusals]

@[simp] theorem providerOutOfContract_mem_operationRefusals :
    Refusal.providerOutOfContract ∈ operationRefusals := by simp [operationRefusals]

@[simp] theorem operandOutsideDomain_mem_operationRefusals :
    Refusal.operandOutsideDomain ∈ operationRefusals := by simp [operationRefusals]

@[simp] theorem illegalConfig_notMem_operationRefusals :
    Refusal.illegalConfig ∉ operationRefusals := by simp [operationRefusals]

@[simp] theorem refusesIn_next (R : Set Refusal) (s : State) : RefusesIn R (.next s) := nofun

@[simp] theorem refusesIn_fault (R : Set Refusal) (e : Fault) : RefusesIn R (.fault e) := nofun

@[simp] theorem refusesIn_refused {R : Set Refusal} {r : Refusal} :
    RefusesIn R (.refused r) ↔ r ∈ R := by simp [RefusesIn]

theorem RefusesIn.mono {R Q : Set Refusal} {o : Result} (h : RefusesIn R o) (hRQ : R ⊆ Q) :
    RefusesIn Q o := fun r hr => hRQ (h r hr)

theorem RefusesIn.ite {R : Set Refusal} {p : Prop} [Decidable p] {a b : Result}
    (ha : RefusesIn R a) (hb : RefusesIn R b) : RefusesIn R (if p then a else b) := by
  split
  · exact ha
  · exact hb

theorem RefusesIn.andThen {R : Set Refusal} {o : Result} {f : State → Result}
    (ho : RefusesIn R o) (hf : ∀ t, RefusesIn R (f t)) : RefusesIn R (andThen o f) := by
  cases o with
  | next t => exact hf t
  | fault e => exact refusesIn_fault R e
  | refused r => exact ho

/-! ### The shared operations: at most a provider out of contract is refused (R148) -/

theorem pushByte_refusesIn (R : Set Refusal) (b : Byte) (s : State) : RefusesIn R (pushByte b s) :=
  .ite (refusesIn_fault _ _) (refusesIn_next _ _)

theorem pushBytes_refusesIn (R : Set Refusal) (bs : List Byte) (s : State) :
    RefusesIn R (pushBytes bs s) := by
  induction bs generalizing s with
  | nil => exact refusesIn_next _ _
  | cons b bs ih => exact (pushByte_refusesIn R b s).andThen ih

theorem answerPoll_refusesIn (R : Set Refusal) (p : List Byte) (s : State) :
    RefusesIn R (answerPoll p s) :=
  (pushBytes_refusesIn R _ _).andThen fun _ => refusesIn_next _ _

theorem ackAndComplete_refusesIn (R : Set Refusal) (s : State) : RefusesIn R (ackAndComplete s) :=
  (pushByte_refusesIn R _ _).andThen fun _ => refusesIn_next _ _

theorem execAckh_refusesIn (R : Set Refusal) (b : Byte) (s : State) : RefusesIn R (execAckh b s) :=
  (pushByte_refusesIn R _ _).andThen fun _ => refusesIn_next _ _

theorem execDispatch_refusesIn (s : State) :
    RefusesIn {.providerOutOfContract} (execDispatch s) := by
  unfold execDispatch
  cases s.dispatchClass with
  | pollAns p => exact answerPoll_refusesIn _ _ _
  | pollAck | dataAck => exact ackAndComplete_refusesIn _ _
  | pollObs | dataObs => exact refusesIn_next _ _
  | outOfContract => exact refusesIn_refused.mpr rfl

theorem waitDataRules_refusesIn (b : Byte) (s : State) :
    RefusesIn {.providerOutOfContract} (waitDataRules b s) := by
  refine (pushByte_refusesIn _ b s).andThen fun t => ?_
  cases t.dataClass with
  | append | badLen | badSum => exact refusesIn_next _ _
  | valid => exact execDispatch_refusesIn t

/-- `CONSUME(b)` refuses nothing but a provider out of contract. -/
theorem consumeByte_refusesIn (b : Byte) (s : State) :
    RefusesIn {.providerOutOfContract} (consumeByte b s) := by
  unfold consumeByte parserRules
  cases (overflowGuard s).st with
  | waitStart => exact refusesIn_next _ _
  | waitData => exact waitDataRules_refusesIn _ _
  | waitStartSlave =>
    exact .ite ((pushByte_refusesIn _ _ _).andThen fun _ => refusesIn_next _ _)
      (execAckh_refusesIn _ _ _)
  | waitDataSlave => exact (pushByte_refusesIn _ _ _).andThen fun _ => refusesIn_next _ _
  | waitAck => exact execAckh_refusesIn _ _ _

theorem drain_refusesIn (bs : List Byte) (s : State) :
    RefusesIn {.providerOutOfContract} (drain bs s) := by
  induction bs generalizing s with
  | nil => exact refusesIn_next _ _
  | cons b bs ih => exact (consumeByte_refusesIn b _).andThen ih

theorem execLoop_refusesIn (s : State) : RefusesIn {.providerOutOfContract} (execLoop s) :=
  (RefusesIn.ite (drain_refusesIn _ s) (refusesIn_next _ s)).andThen fun _ => refusesIn_next _ _

theorem execConsume_refusesIn (b : Byte) (s : State) :
    RefusesIn {.providerOutOfContract} (execConsume b s) :=
  (consumeByte_refusesIn b s).andThen fun _ => refusesIn_next _ _

theorem execTokenpoll_refusesIn (a : Addr) (c : Byte) (s : State) :
    RefusesIn {.providerOutOfContract} (execTokenpoll a c s) := by
  unfold execTokenpoll
  cases pollAnswer s a c with
  | supplied p | nothing => exact refusesIn_next _ _
  | outOfContract => exact refusesIn_refused.mpr rfl

/-! ### Every operation -/

theorem providerOutOfContract_subset : {.providerOutOfContract} ⊆ operationRefusals := by
  simp

theorem RefusesIn.whenSelected {o : Result} (h : RefusesIn operationRefusals o) (s : State) (b : Byte)
    (i : Instr) : RefusesIn operationRefusals (whenSelected s b i o) :=
  .ite h (by simp)

theorem whenAckRow_refusesIn (s : State) (b : Byte) (i : Instr) (t : State) :
    RefusesIn operationRefusals (whenAckRow s b i t) :=
  .ite (refusesIn_next _ _) (by simp)

theorem execWdPollAns_refusesIn (b : Byte) (s : State) :
    RefusesIn operationRefusals (execWdPollAns b s) := by
  refine RefusesIn.whenSelected ?_ s b _
  cases (s.append b).dispatchClass with
  | pollAns p => exact answerPoll_refusesIn _ _ _
  | pollAck | dataAck | pollObs | dataObs | outOfContract => simp

/-- Every refusal of an operation, whatever the operation and the state, is one of `operationRefusals`. -/
theorem exec_refusesIn (i : Instr) (s : State) : RefusesIn operationRefusals (exec i s) := by
  cases i with
  -- RX rows, refused where R66 does not select them
  | ovf | wsDbl | wsStart | wsSlide | wdAppend | wdBadlen | wdBadsum | wdPollObs | wdDataObs
  | wssStart | wdsAppend | wdsDone => exact (refusesIn_next _ _).whenSelected _ _ _
  | wdPollAck | wdDataAck => exact (ackAndComplete_refusesIn _ _).whenSelected _ _ _
  | wdPollAns => exact execWdPollAns_refusesIn _ _
  | wdValid => exact .ite ((execDispatch_refusesIn _).mono providerOutOfContract_subset) (by simp)
  | wssOther => exact (execAckh_refusesIn _ _ _).whenSelected _ _ _
  | wa => exact .ite (execAckh_refusesIn _ _ _) (by simp)
  | ackhAck | ackhNak | ackhMark | ackhOther => exact whenAckRow_refusesIn _ _ _ _
  -- operations with an operand domain
  | mframe | sframe | mkmaster | mkslave => exact .ite (refusesIn_next _ _) (by simp)
  | sendbytes => exact .ite (by simp) (refusesIn_next _ _)
  -- operations that may ask a provider
  | loop => exact (execLoop_refusesIn s).mono providerOutOfContract_subset
  | consume => exact (execConsume_refusesIn _ s).mono providerOutOfContract_subset
  | dispatch => exact (execDispatch_refusesIn s).mono providerOutOfContract_subset
  | tokenpoll => exact (execTokenpoll_refusesIn _ _ s).mono providerOutOfContract_subset
  -- operations that refuse nothing: ENQ and SETCONST answer a bad payload by a next state (assumption 10)
  | enq | setconst => exact .ite (refusesIn_next _ _) (refusesIn_next _ _)
  | ackh => exact execAckh_refusesIn _ _ _
  | ackbyte | nakbyte | setack | setprov | addlsn | refresh | sweep | connect | disconnect
  | connected | inprog | onframe | ontoken | csum | csumok | mfvalid | sfvalid | complete | sendack
  | sendnak | fanout | lsndispatch | dedup | broadcast => exact refusesIn_next _ _

/-! ### One step, an equation per case -/

section Step

variable {s : State} {rest : List Input}

theorem step_of_illegal (h : s.cfg.legal = false) : step s = .refused .illegalConfig := by
  simp [step, h]

theorem step_of_unscheduled (h : s.cfg.legal = true) (hi : s.inputs = []) : step s = .next s := by
  simp [step, h, hi]

theorem step_of_decoded {inp : Input} {i : Instr} (h : s.cfg.legal = true)
    (hi : s.inputs = inp :: rest) (hd : decodeInput { s with inputs := rest } inp = .ok i) :
    step s = exec i { s with inputs := rest } := by
  simp [step, h, hi, hd]

theorem step_of_noise {bs : List Byte} {r : Reject} (h : s.cfg.legal = true)
    (hi : s.inputs = .wire bs :: rest) (hd : decodeWire s.cfg bs = .error r) :
    step s = .next (deliver bs { s with inputs := rest }) := by
  simp [step, h, hi, decodeInput, hd]

theorem step_of_undecodable_call {k : Call} {r : Reject} (h : s.cfg.legal = true)
    (hi : s.inputs = .call k :: rest) (hd : decodeCall k = .error r) :
    step s = .refused (.undecodable r) := by
  simp [step, h, hi, decodeInput, hd]

/-- Under a legal configuration a step runs an operation or is one of the three steps without one. -/
theorem step_cases (h : s.cfg.legal = true) :
    (s.inputs = [] ∧ step s = .next s) ∨
    (∃ inp rest i, s.inputs = inp :: rest ∧ decodeInput { s with inputs := rest } inp = .ok i ∧
      step s = exec i { s with inputs := rest }) ∨
    (∃ bs rest r, s.inputs = .wire bs :: rest ∧ decodeWire s.cfg bs = .error r ∧
      step s = .next (deliver bs { s with inputs := rest })) ∨
    (∃ k rest r, s.inputs = .call k :: rest ∧ decodeCall k = .error r ∧
      step s = .refused (.undecodable r)) := by
  cases hi : s.inputs with
  | nil => exact .inl ⟨rfl, step_of_unscheduled h hi⟩
  | cons inp rest =>
    cases hd : decodeInput { s with inputs := rest } inp with
    | ok i => exact .inr (.inl ⟨inp, rest, i, rfl, hd, step_of_decoded h hi hd⟩)
    | error r =>
      cases inp with
      | rx b => cases hd
      | wire bs => exact .inr (.inr (.inl ⟨bs, rest, r, rfl, hd, step_of_noise h hi hd⟩))
      | call k => exact .inr (.inr (.inr ⟨k, rest, r, rfl, hd, step_of_undecodable_call h hi hd⟩))

end Step

/-- Only a broken configuration is refused as one. -/
theorem step_ne_illegalConfig {s : State} (h : s.cfg.legal = true) :
    step s ≠ .refused .illegalConfig := by
  obtain ⟨-, hs⟩ | ⟨_, rest, i, -, -, hs⟩ | ⟨_, _, _, -, -, hs⟩ | ⟨_, _, _, -, -, hs⟩ := step_cases h
  · simp [hs]
  · rw [hs]
    exact fun hr => illegalConfig_notMem_operationRefusals (exec_refusesIn i _ _ hr)
  · simp [hs]
  · simp [hs]

/-- `Config.legal` decides the constraints of R6. -/
theorem legal_iff (c : Config) :
    c.legal = true ↔
      c.masterStart ≠ c.slaveStart ∧ c.masterStart ≠ c.ack ∧ c.masterStart ≠ c.nak ∧
      c.slaveStart ≠ c.ack ∧ c.slaveStart ≠ c.nak ∧ c.ack ≠ c.nak ∧ c.masterStart ≠ 0 ∧
      c.subst ≠ c.masterStart ∧ 257 ≤ c.bufCap ∧ 1 ≤ c.queueDepth := by
  have hcap : 2 * maxFrame + 1 = 257 := rfl
  simp only [Config.legal, Bool.and_eq_true, bne_iff_ne, decide_eq_true_eq, and_assoc, hcap]

/-- Settles O4: `legal_iff` reads R6 off the test `step` makes first, and past that test no step refuses with
`illegalConfig`, because no operation does. -/
theorem illegalConfigurationHasNoMeaning : Obligations.IllegalConfigurationHasNoMeaning := by
  intro s
  rw [← legal_iff]
  exact ⟨fun h => step_of_illegal (Bool.eq_false_iff.mpr h), step_ne_illegalConfig⟩

/-- Settles O3, by the equations of the three steps that run no operation. -/
theorem stepWithoutOperation : Obligations.StepWithoutOperation := fun _ h =>
  ⟨step_of_unscheduled h, fun _ _ _ => step_of_noise h, fun _ _ _ => step_of_undecodable_call h⟩

end Sys2Proof.Machine

/-! ## The state (10_state.md): reset, the configuration, stale bytes, and the invariant of R26 -/

namespace Sys2Proof.Machine

/-! ### What the next state of an outcome satisfies -/

/-- If `o` goes on at all, its next state satisfies `P`. -/
def Yields (P : State → Prop) (o : Result) : Prop := ∀ t, o = .next t → P t

@[simp] theorem yields_next {P : State → Prop} {s : State} : Yields P (.next s) ↔ P s := by
  simp [Yields]

@[simp] theorem yields_fault (P : State → Prop) (e : Fault) : Yields P (.fault e) := nofun

@[simp] theorem yields_refused (P : State → Prop) (r : Refusal) : Yields P (.refused r) := nofun

theorem Yields.mono {P Q : State → Prop} {o : Result} (h : Yields P o) (hPQ : ∀ t, P t → Q t) :
    Yields Q o := fun t ht => hPQ t (h t ht)

theorem Yields.ite {P : State → Prop} {p : Prop} [Decidable p] {a b : Result}
    (ha : p → Yields P a) (hb : ¬p → Yields P b) : Yields P (if p then a else b) := by
  split
  · exact ha ‹_›
  · exact hb ‹_›

theorem Yields.andThen {P Q : State → Prop} {o : Result} {f : State → Result}
    (ho : Yields Q o) (hf : ∀ t, Q t → Yields P (f t)) : Yields P (andThen o f) := by
  intro u hu
  obtain ⟨t, ht, hu⟩ := andThen_eq_next.mp hu
  exact hf t (ho t ht) u hu

theorem Yields.whenSelected {P : State → Prop} {o : Result} (h : Yields P o) (s : State) (b : Byte)
    (i : Instr) : Yields P (whenSelected s b i o) :=
  .ite (fun _ => h) fun _ => yields_refused _ _

theorem yields_whenAckRow {P : State → Prop} {t : State} (h : P t) (s : State) (b : Byte)
    (i : Instr) : Yields P (whenAckRow s b i t) :=
  .ite (fun _ => yields_next.mpr h) fun _ => yields_refused _ _

theorem pushByte_yields (b : Byte) (s : State) :
    Yields (fun t => s.cur < s.cfg.bufCap ∧ t = s.append b) (pushByte b s) :=
  .ite (fun _ => yields_fault _ _) fun h => yields_next.mpr ⟨not_le.mp h, rfl⟩

/-- What every checked append keeps, the checked appends of a list keep. -/
theorem pushBytes_yields {P : State → Prop} (hP : ∀ b s, P s → Yields P (pushByte b s))
    (bs : List Byte) {s : State} (h : P s) : Yields P (pushBytes bs s) := by
  induction bs generalizing s with
  | nil => exact yields_next.mpr h
  | cons b bs ih => exact (hP b s h).andThen fun _ => ih

/-- What every received byte keeps, whatever waits behind it, the driving loop keeps. -/
theorem drain_yields {P : State → Prop} (hP : ∀ b s, P s → Yields P (consumeByte b s))
    (hq : ∀ s bs, P s → P { s with rxq := bs }) (bs : List Byte) {s : State} (h : P s) :
    Yields P (drain bs s) := by
  induction bs generalizing s with
  | nil => exact yields_next.mpr (hq s [] h)
  | cons b bs ih => exact (hP b _ (hq s bs h)).andThen fun _ => ih

/-- What a step's next state satisfies: the waiting step, the decoded operation and the arrival of noise. -/
theorem step_yields {P : State → Prop} {s : State} (hwait : P s)
    (hexec : ∀ inp rest i, decodeInput { s with inputs := rest } inp = .ok i →
      Yields P (exec i { s with inputs := rest }))
    (hnoise : ∀ bs rest, P (deliver bs { s with inputs := rest })) : Yields P (step s) := by
  cases hl : s.cfg.legal with
  | false => simp [step_of_illegal hl]
  | true =>
    obtain ⟨-, hs⟩ | ⟨inp, rest, i, -, hd, hs⟩ | ⟨bs, rest, _, -, -, hs⟩ | ⟨_, _, _, -, -, hs⟩ :=
      step_cases hl <;> rw [hs]
    · exact yields_next.mpr hwait
    · exact hexec inp rest i hd
    · exact yields_next.mpr (hnoise bs rest)
    · exact yields_refused _ _

/-! ### The configuration record (R24) -/

theorem BusFrame.cfg {s t : State} (h : BusFrame s t) : t.cfg = s.cfg := by
  rw [BusFrame] at h
  rw [h]

@[simp] theorem complete_cfg (seed : Byte) (s : State) : (complete seed s).cfg = s.cfg :=
  (complete_flushed seed s).busFrame.cfg

@[simp] theorem raiseError_cfg (e : ErrorClass) (s : State) : (raiseError e s).cfg = s.cfg :=
  (raiseError_flushed e s).busFrame.cfg

@[simp] theorem afterPoll_cfg (s : State) (a : Addr) (c : Byte) : (afterPoll s a c).cfg = s.cfg := by
  rw [afterPoll_frame]

@[simp] theorem polled_cfg (s : State) : s.polled.cfg = s.cfg := afterPoll_cfg _ _ _

@[simp] theorem waitStartRules_cfg (b : Byte) (s : State) : (waitStartRules b s).cfg = s.cfg :=
  (waitStartRules_frame b s).cfg

theorem answerPoll_yields_cfg (p : List Byte) (s : State) :
    Yields (·.cfg = s.cfg) (answerPoll p s) := fun _ h => (answerPoll_frame h).cfg

theorem ackAndComplete_yields_cfg (s : State) : Yields (·.cfg = s.cfg) (ackAndComplete s) :=
  fun _ h => (ackAndComplete_frame h).cfg

theorem execDispatch_yields_cfg (s : State) : Yields (·.cfg = s.cfg) (execDispatch s) :=
  fun _ h => (execDispatch_frame h).cfg

theorem execAckh_yields_cfg (b : Byte) (s : State) : Yields (·.cfg = s.cfg) (execAckh b s) :=
  fun _ h => (execAckh_frame h).cfg

theorem execWdPollAns_yields_cfg (b : Byte) (s : State) :
    Yields (·.cfg = s.cfg) (execWdPollAns b s) := by
  refine Yields.whenSelected ?_ s b _
  cases (s.append b).dispatchClass with
  | pollAns p => simpa using answerPoll_yields_cfg p (s.append b).polled
  | pollAck | dataAck | pollObs | dataObs | outOfContract => exact yields_refused _ _

theorem consumeByte_yields_cfg {c : Config} (b : Byte) (s : State) (h : s.cfg = c) :
    Yields (·.cfg = c) (consumeByte b s) := fun _ ht => (consumeByte_frame ht).cfg.trans h

theorem execTokenpoll_yields_cfg (a : Addr) (c : Byte) (s : State) :
    Yields (·.cfg = s.cfg) (execTokenpoll a c s) := by
  unfold execTokenpoll
  cases pollAnswer s a c with
  | supplied p | nothing => simp
  | outOfContract => exact yields_refused _ _

/-- No operation writes the configuration record (R24). -/
theorem exec_yields_cfg (i : Instr) (s : State) : Yields (·.cfg = s.cfg) (exec i s) := by
  cases i with
  -- RX rows
  | wsDbl | wsStart | wsSlide | wdAppend | wdPollObs | wdDataObs | wssStart | wdsAppend | wdsDone =>
    refine Yields.whenSelected (yields_next.mpr ?_) _ _ _
    rfl
  | ovf | wdBadlen | wdBadsum => exact .whenSelected (yields_next.mpr (by simp)) _ _ _
  | wdValid b => exact .ite (fun _ => execDispatch_yields_cfg (s.append b)) fun _ => yields_refused _ _
  | wdPollAns => exact execWdPollAns_yields_cfg _ _
  | wdPollAck b =>
    exact .whenSelected (by simpa using ackAndComplete_yields_cfg (s.append b).polled) _ _ _
  | wdDataAck b => exact .whenSelected (ackAndComplete_yields_cfg (s.append b)) _ _ _
  | wssOther => exact .whenSelected (execAckh_yields_cfg _ _) _ _ _
  | wa => exact .ite (fun _ => execAckh_yields_cfg _ _) fun _ => yields_refused _ _
  | ackhAck | ackhNak | ackhMark => exact yields_whenAckRow (complete_cfg _ _) _ _ _
  | ackhOther => exact yields_whenAckRow (raiseError_cfg _ _) _ _ _
  -- operations made of received bytes, a poll or a flush
  | loop =>
    refine Yields.andThen (Q := (·.cfg = s.cfg)) (.ite (fun _ => ?_) fun _ => yields_next.mpr rfl)
      fun _ h => yields_next.mpr h
    exact drain_yields consumeByte_yields_cfg (fun _ _ => id) _ rfl
  | consume b => exact (consumeByte_yields_cfg b s rfl).andThen fun _ h => yields_next.mpr h
  | dispatch => exact execDispatch_yields_cfg s
  | ackh => exact execAckh_yields_cfg _ _
  | complete => exact yields_next.mpr (complete_cfg _ _)
  | tokenpoll => exact execTokenpoll_yields_cfg _ _ _
  -- operations that write other fields only
  | mframe | sframe | mkmaster | mkslave =>
    exact .ite (fun _ => yields_next.mpr rfl) fun _ => yields_refused _ _
  | sendbytes => exact .ite (fun _ => yields_refused _ _) fun _ => yields_next.mpr rfl
  | enq | setconst => exact .ite (fun _ => yields_next.mpr rfl) fun _ => yields_next.mpr rfl
  | ackbyte | nakbyte | setack | setprov | addlsn | refresh | sweep | connect | disconnect
  | connected | inprog | onframe | ontoken | csum | csumok | mfvalid | sfvalid | sendack | sendnak
  | fanout | lsndispatch | dedup | broadcast => exact yields_next.mpr rfl

/-- Settles O51: no operation writes the record, and a step without an operation takes an input or lets bytes
arrive. -/
theorem configurationNeverChanges : Obligations.ConfigurationNeverChanges :=
  ⟨exec_yields_cfg, fun _ => step_yields rfl (fun _ _ i _ => exec_yields_cfg i _) fun _ _ => rfl⟩

/-! ### Reset (R31) -/

theorem mem_tableKeys_tableSet {κ α : Type} [DecidableEq κ] (code : κ → Nat) (t : List (κ × α))
    (k j : κ) (v : α) : j ∈ tableKeys (tableSet code t k v) ↔ j = k ∨ j ∈ tableKeys t := by
  rw [← not_iff_not, not_or, ← keyless_iff, ← keyless_iff, tableGet_tableSet]
  split_ifs with h <;> simp [h]

/-- The targets after every endpoint of a list was seen at `now`. -/
theorem mem_tableKeys_seen (now : Nat) (es : List Endpoint) (t : List (Endpoint × Nat))
    (e : Endpoint) :
    e ∈ tableKeys (es.foldl (fun t e => tableSet id t e now) t) ↔ e ∈ es ∨ e ∈ tableKeys t := by
  induction es generalizing t with
  | nil => simp
  | cons x es ih => rw [List.foldl_cons, ih, mem_tableKeys_tableSet, List.mem_cons]; tauto

theorem seen_wf (now : Nat) (es : List Endpoint) {t : List (Endpoint × Nat)} (h : TableWf id t) :
    TableWf id (es.foldl (fun t e => tableSet id t e now) t) := by
  induction es generalizing t with
  | nil => exact h
  | cons x es ih => exact ih (tableSet_wf (fun _ _ e => e) h x now)

theorem mem_tableKeys_reset_tgt (c : Config) (e : Endpoint) :
    e ∈ tableKeys (State.resetWith c).tgt ↔ e ∈ c.staticTargets :=
  (mem_tableKeys_seen 0 c.staticTargets [] e).trans (by simp [tableKeys])

/-- Settles O47: all but the targets by definition, the targets by `mem_tableKeys_reset_tgt`. -/
theorem resetLeavesTheStatedValues : Obligations.ResetLeavesTheStatedValues := fun c =>
  ⟨rfl, rfl, rfl, rfl, rfl, rfl, rfl, rfl, rfl, mem_tableKeys_reset_tgt c, rfl, rfl⟩

/-! ### The decode table and CONSUME (R66, R90) -/

theorem overflowGuard_of_room {s : State} (h : s.overflowing = false) : overflowGuard s = s := by
  simp [overflowGuard, h]

theorem cur_lt_bufCap {s : State} (h : s.overflowing = false) (hst : s.st ≠ .waitStart) :
    s.cur < s.cfg.bufCap := by
  simpa [State.overflowing, hst] using h

theorem consumeByte_of_room {s : State} (h : s.overflowing = false) (b : Byte) :
    consumeByte b s = parserRules b s := by
  rw [consumeByte, overflowGuard_of_room h]

/-- A selected row has its effect. -/
theorem exec_selected {s : State} {b : Byte} {i : Instr} {o : Result} (hi : selectRow s b = i)
    (hx : exec i s = whenSelected s b i o) : exec (selectRow s b) s = o := by
  rw [hi, hx]
  exact if_pos hi

/-- A selected AckHandler row has its effect. -/
theorem exec_ackSelected {s t : State} {b : Byte} {i : Instr} (hs : s.awaitsAck b = true)
    (hi : ackRow s.cfg b = i) (hx : exec i s = whenAckRow s b i t) :
    exec (ackRow s.cfg b) s = .next t := by
  rw [hi, hx]
  exact if_pos ⟨hs, hi⟩

@[simp] theorem raiseError_st (e : ErrorClass) (s : State) : (raiseError e s).st = .waitStart := rfl

/-- The row of a byte that meets a full buffer (R121). -/
theorem exec_selectRow_full {s : State} (b : Byte) (h : s.overflowing = true) :
    exec (selectRow s b) s = consumeByte b s := by
  have hg : overflowGuard s = raiseError .bufferOverflow s := if_pos h
  rw [consumeByte, hg, parserRules, raiseError_st]
  exact exec_selected (i := .ovf s.st b) (by simp [selectRow, h]) rfl

section Rows

variable {s : State} (b : Byte) (ho : s.overflowing = false)

include ho

/-- The rows of `WaitStart` (R91 to R93). -/
theorem exec_selectRow_waitStart (hst : s.st = .waitStart) :
    exec (selectRow s b) s = .next (waitStartRules b s) := by
  unfold waitStartRules
  by_cases hp : s.prev = s.cfg.masterStart
  · rw [if_pos hp]
    by_cases hb : b = s.cfg.masterStart
    · subst hb
      rw [if_pos rfl]
      exact exec_selected (i := .wsDbl) (by simp [selectRow, ho, hst, hp]) rfl
    · rw [if_neg hb]
      exact exec_selected (i := .wsStart b) (by simp [selectRow, ho, hst, hp, hb]) rfl
  · rw [if_neg hp]
    exact exec_selected (i := .wsSlide b) (by simp [selectRow, ho, hst, hp]) rfl

/-- The row of the last byte of a valid master frame (R99 to R104). -/
theorem exec_selectRow_valid (hst : s.st = .waitData) (hd : (s.append b).dataClass = .valid) :
    exec (selectRow s b) s = execDispatch (s.append b) := by
  have hi : selectRow s b = dispatchRow b (s.append b).dispatchClass := by
    simp [selectRow, ho, hst, hd]
  unfold execDispatch
  cases hc : (s.append b).dispatchClass with
  | pollAns | outOfContract =>
    refine exec_selected (i := .wdPollAns b) (by rw [hi, hc, dispatchRow]) ?_
    rw [exec, execWdPollAns, hc]
    rfl
  | pollAck => exact exec_selected (i := .wdPollAck b) (by rw [hi, hc, dispatchRow]) rfl
  | dataAck => exact exec_selected (i := .wdDataAck b) (by rw [hi, hc, dispatchRow]) rfl
  | pollObs => exact exec_selected (i := .wdPollObs b) (by rw [hi, hc, dispatchRow]) rfl
  | dataObs => exact exec_selected (i := .wdDataObs b) (by rw [hi, hc, dispatchRow]) rfl

/-- The rows of `WaitData` (R94 to R97). -/
theorem exec_selectRow_waitData (hst : s.st = .waitData) :
    exec (selectRow s b) s = waitDataRules b s := by
  rw [waitDataRules, pushByte_room (cur_lt_bufCap ho (by simp [hst])), andThen_next]
  cases hd : (s.append b).dataClass with
  | append => exact exec_selected (i := .wdAppend b) (by simp [selectRow, ho, hst, hd]) rfl
  | badLen => exact exec_selected (i := .wdBadlen b) (by simp [selectRow, ho, hst, hd]) rfl
  | badSum => exact exec_selected (i := .wdBadsum b) (by simp [selectRow, ho, hst, hd]) rfl
  | valid => exact exec_selectRow_valid b ho hst hd

/-- The rows of `WaitStartSlave` (R110, R111). -/
theorem exec_selectRow_waitStartSlave (hst : s.st = .waitStartSlave) :
    exec (selectRow s b) s = waitStartSlaveRules b s := by
  unfold waitStartSlaveRules
  by_cases hb : b = s.cfg.slaveStart
  · subst hb
    rw [if_pos rfl, pushByte_room (cur_lt_bufCap ho (by simp [hst]))]
    exact exec_selected (i := .wssStart) (by simp [selectRow, ho, hst]) rfl
  · rw [if_neg hb]
    exact exec_selected (i := .wssOther b) (by simp [selectRow, ho, hst, hb]) rfl

/-- The rows of `WaitDataSlave` (R112, R113). -/
theorem exec_selectRow_waitDataSlave (hst : s.st = .waitDataSlave) :
    exec (selectRow s b) s = waitDataSlaveRules b s := by
  rw [waitDataSlaveRules, pushByte_room (cur_lt_bufCap ho (by simp [hst])), andThen_next]
  cases hd : (s.append b).slaveDone with
  | true => exact exec_selected (i := .wdsDone b) (by simp [selectRow, ho, hst, hd]) rfl
  | false => exact exec_selected (i := .wdsAppend b) (by simp [selectRow, ho, hst, hd]) rfl

/-- The AckHandler rows in `WaitAck` (R114 to R120). -/
theorem exec_selectRow_waitAck (hst : s.st = .waitAck) :
    exec (selectRow s b) s = execAckh b s := by
  have hs : s.awaitsAck b = true := by simp [State.awaitsAck, ho, hst]
  have hi : selectRow s b = ackRow s.cfg b := by simp [selectRow, ho, hst]
  rw [hi, execAckh, pushByte_room (cur_lt_bufCap ho (by simp [hst])), andThen_next, classifyAck,
    append_cfg]
  by_cases hack : b = s.cfg.ack
  · subst hack
    rw [if_pos rfl]
    exact exec_ackSelected (i := .ackhAck) hs (by simp [ackRow]) rfl
  by_cases hnak : b = s.cfg.nak
  · subst hnak
    rw [if_neg hack, if_pos rfl]
    exact exec_ackSelected (i := .ackhNak) hs (by simp [ackRow, hack]) rfl
  by_cases hmark : b = s.cfg.masterStart
  · subst hmark
    rw [if_neg hack, if_neg hnak, if_pos rfl]
    exact exec_ackSelected (i := .ackhMark) hs (by simp [ackRow, hack, hnak]) rfl
  · rw [if_neg hack, if_neg hnak, if_neg hmark]
    exact exec_ackSelected (i := .ackhOther b) hs (by simp [ackRow, hack, hnak, hmark]) rfl

end Rows

/-- The row the decode table selects does what the guard and the case on `st` do. -/
theorem exec_selectRow (s : State) (b : Byte) : exec (selectRow s b) s = consumeByte b s := by
  cases ho : s.overflowing with
  | true => exact exec_selectRow_full b ho
  | false =>
    rw [consumeByte_of_room ho]
    unfold parserRules
    cases hst : s.st with
    | waitStart => exact exec_selectRow_waitStart b ho hst
    | waitData => exact exec_selectRow_waitData b ho hst
    | waitStartSlave => exact exec_selectRow_waitStartSlave b ho hst
    | waitDataSlave => exact exec_selectRow_waitDataSlave b ho hst
    | waitAck => exact exec_selectRow_waitAck b ho hst

/-- The step that takes a received byte. -/
theorem step_of_received {s : State} {b : Byte} {rest : List Input} (h : s.cfg.legal = true)
    (hi : s.inputs = .rx b :: rest) : step s = consumeByte b { s with inputs := rest } :=
  (step_of_decoded h hi rfl).trans (exec_selectRow _ b)

/-- Whether an operation is one the bus or the host issues as a whole: a wire format or a command (R60, R72). -/
def isExternal (c : Config) (i : Instr) : Bool := (encodeWire c i).isSome || (encodeCall i).isSome

theorem decodeWire_external {c : Config} {bs : List Byte} {i : Instr}
    (h : decodeWire c bs = .ok i) : isExternal c i = true := by
  unfold decodeWire at h
  split_ifs at h <;> cases h <;> rfl

/-- If `e` is an operation at all, it is an external one. -/
def OkExternal (c : Config) (e : Except Reject Instr) : Prop := ∀ i, e = .ok i → isExternal c i = true

theorem okExternal_ok {c : Config} {i : Instr} (h : isExternal c i = true) : OkExternal c (.ok i) := by
  rintro _ ⟨⟩
  exact h

theorem okExternal_error (c : Config) (r : Reject) : OkExternal c (.error r) := nofun

/-- An operand that does not decode yields no operation. -/
theorem okExternal_bind {α : Type} {c : Config} (x : Except Reject α) {f : α → Except Reject Instr}
    (hf : ∀ a, OkExternal c (f a)) : OkExternal c (x >>= f) := by
  cases x with
  | ok a => exact hf a
  | error r => exact okExternal_error c r

/-- The shape of a command with an address and a bit or byte. -/
theorem okExternal_operands {α β : Type} {c : Config} (x : Except Reject α) (y : Except Reject β)
    {g : α → β → Instr} (hg : ∀ a b, isExternal c (g a b) = true) :
    OkExternal c (x >>= fun a => y >>= fun b => .ok (g a b)) :=
  okExternal_bind x fun a => okExternal_bind y fun b => okExternal_ok (hg a b)

theorem decodeCall_external (c : Config) (k : Call) : OkExternal c (decodeCall k) := by
  unfold decodeCall
  split
  -- SETACK, ENQ, SETPROV, SETCONST, ADDLSN
  iterate 5 exact okExternal_operands _ _ fun _ _ => rfl
  -- REFRESH, SWEEP, CONNECT, DISCONNECT, CONNECTED, LOOP, INPROG
  iterate 7 exact okExternal_ok rfl
  -- CONSUME
  · exact okExternal_bind _ fun _ => okExternal_ok rfl
  -- ONFRAME, ONTOKEN
  iterate 2 exact okExternal_ok rfl
  -- no command
  · split
    · exact okExternal_error c _
    · exact okExternal_error c _

/-- A decoded input is a received byte with its row, or an operation of the bus or the host. -/
theorem decodeInput_ok {s : State} {inp : Input} {i : Instr} (h : decodeInput s inp = .ok i) :
    (∃ b, i = selectRow s b) ∨ isExternal s.cfg i = true := by
  cases inp with
  | rx b => cases h; exact .inl ⟨b, rfl⟩
  | wire bs => exact .inr (decodeWire_external h)
  | call k => exact .inr (decodeCall_external _ k i h)

end Sys2Proof.Machine

/-! ## The invariant of R26 in three parts: the request table, what a flush keeps, the parser session -/

namespace Sys2Proof.Machine

/-! ### The parts, and that they are the invariant -/

/-- Clause (vi) and the bound of R145, for one request entry. -/
structure ReqEntry.Ok (c : Config) (e : ReqEntry) : Prop where
  depth : e.queue.length ≤ c.queueDepth
  payloads : ∀ p ∈ e.queue, payloadOk p = true
  constant : ∀ p, e.fallback = .const p → payloadOk p = true

/-- What the invariant says of a request table: canonical form, no empty entry listed, clause (vi) and the bound
of R145. -/
structure ReqOk (c : Config) (req : List (Key × ReqEntry)) : Prop where
  wf : TableWf keyCode req
  nonempty : ∀ x ∈ req, x.2 ≠ ReqEntry.empty
  entries : ∀ x ∈ req, x.2.Ok c

/-- The part of the invariant that does not speak of the session registers: the configuration, the buffer's form
and range, and the tables. -/
structure StoreOk (c : Config) (mem : List Host.Cell) (ackset : List Addr) (req : List (Key × ReqEntry))
    (lsn : List (Key × ListenerId)) (tgt : List (Endpoint × Nat)) : Prop where
  legal : c.legal = true
  memWf : Memory.wf mem
  memRange : ∀ x ∈ mem, x.1 < c.bufCap
  acksetWf : SetWf addrCode ackset
  reqOk : ReqOk c req
  lsnWf : TableWf keyCode lsn
  tgtWf : TableWf id tgt
  statics : ∀ e ∈ c.staticTargets, e ∈ tableKeys tgt

/-- `StoreOk` of a state's own fields. -/
abbrev State.StoreOk (s : State) : Prop :=
  Machine.StoreOk s.cfg s.mem s.ackset s.req s.lsn s.tgt

/-- Clause (ii): the beginning of a master frame, short of its last byte. -/
def State.InMasterFrame (s : State) : Prop :=
  2 ≤ s.cur ∧ s.readBuf 0 = s.cfg.masterStart ∧ s.readBuf 1 ≠ s.cfg.masterStart ∧
    (5 ≤ s.cur → s.frameLen ≤ maxData ∧ s.cur < 6 + s.frameLen)

/-- Clause (iii): the transcript begins with a valid master frame. -/
def State.HoldsMasterFrame (s : State) : Prop :=
  6 + s.frameLen ≤ s.cur ∧ masterFrameValid s.cfg (s.bufSlice 0 (6 + s.frameLen)) = true

/-- Clause (v), but for (iii): a slave frame begun at offset 6 and not complete. -/
def State.InSlaveFrame (s : State) : Prop :=
  s.sorg = 6 ∧ s.readBuf s.sorg = s.cfg.slaveStart ∧ s.sorg < s.cur ∧ s.slaveDone = false

/-- Clauses (i) to (v), state by state. -/
def State.SessionOk (s : State) : Prop :=
  match s.st with
  | .waitStart => s.cur = 0
  | .waitData => s.InMasterFrame
  | .waitStartSlave => s.HoldsMasterFrame ∧ s.frameLen = 0 ∧ s.cur = 6
  | .waitDataSlave => s.HoldsMasterFrame ∧ s.InSlaveFrame
  | .waitAck => s.HoldsMasterFrame

section Session

variable {s : State}

theorem sessionOk_waitStart (h : s.st = .waitStart) : s.SessionOk ↔ s.cur = 0 := by
  rw [State.SessionOk, h]

theorem sessionOk_waitData (h : s.st = .waitData) : s.SessionOk ↔ s.InMasterFrame := by
  rw [State.SessionOk, h]

theorem sessionOk_waitStartSlave (h : s.st = .waitStartSlave) :
    s.SessionOk ↔ s.HoldsMasterFrame ∧ s.frameLen = 0 ∧ s.cur = 6 := by
  rw [State.SessionOk, h]

theorem sessionOk_waitDataSlave (h : s.st = .waitDataSlave) :
    s.SessionOk ↔ s.HoldsMasterFrame ∧ s.InSlaveFrame := by
  rw [State.SessionOk, h]

theorem sessionOk_waitAck (h : s.st = .waitAck) : s.SessionOk ↔ s.HoldsMasterFrame := by
  rw [State.SessionOk, h]

/-- In every state but `WaitStart` the session holds a byte at least. -/
theorem State.SessionOk.cur_pos (h : s.SessionOk) (hst : s.st ≠ .waitStart) : 0 < s.cur := by
  have framed : s.HoldsMasterFrame → 0 < s.cur := fun hf => by
    have := hf.1
    omega
  cases hs : s.st with
  | waitStart => exact absurd hs hst
  | waitData => exact lt_of_lt_of_le two_pos ((sessionOk_waitData hs).mp h).1
  | waitStartSlave => exact framed ((sessionOk_waitStartSlave hs).mp h).1
  | waitDataSlave => exact framed ((sessionOk_waitDataSlave hs).mp h).1
  | waitAck => exact framed ((sessionOk_waitAck hs).mp h)

theorem State.SessionOk.holdsMasterFrame (h : s.SessionOk)
    (hst : s.st = .waitStartSlave ∨ s.st = .waitDataSlave ∨ s.st = .waitAck) :
    s.HoldsMasterFrame := by
  obtain hst | hst | hst := hst
  · exact ((sessionOk_waitStartSlave hst).mp h).1
  · exact ((sessionOk_waitDataSlave hst).mp h).1
  · exact (sessionOk_waitAck hst).mp h

end Session

theorem payloadOk_iff {p : List Byte} :
    payloadOk p = true ↔ 1 ≤ p.length ∧ p.length ≤ maxResp := by
  simp [payloadOk, Nat.one_le_iff_ne_zero]

theorem State.Inv.storeOk {s : State} (h : s.Inv) : s.StoreOk where
  legal := h.legal
  memWf := h.memWf
  memRange := h.memRange
  acksetWf := h.acksetWf
  reqOk :=
    { wf := h.reqWf
      nonempty := h.reqNonempty
      entries := fun x hx =>
        { depth := (h.queues x hx).1
          payloads := fun p hp => payloadOk_iff.mpr ((h.queues x hx).2 p hp)
          constant := fun p hp => payloadOk_iff.mpr (by simpa [hp] using h.constants x hx) } }
  lsnWf := h.lsnWf
  tgtWf := h.tgtWf
  statics := h.statics

theorem State.Inv.sessionOk {s : State} (h : s.Inv) : s.SessionOk := by
  cases hst : s.st with
  | waitStart => exact (sessionOk_waitStart hst).mpr (h.idle.mp hst)
  | waitData => exact (sessionOk_waitData hst).mpr (h.data hst)
  | waitStartSlave =>
    exact (sessionOk_waitStartSlave hst).mpr ⟨(h.framed (.inl hst)).2, h.polled hst⟩
  | waitDataSlave =>
    exact (sessionOk_waitDataSlave hst).mpr ⟨(h.framed (.inr (.inl hst))).2, h.slaveData hst⟩
  | waitAck => exact (sessionOk_waitAck hst).mpr (h.framed (.inr (.inr hst))).2

/-- The invariant of R26 is its parts. -/
theorem inv_iff {s : State} : s.Inv ↔ s.StoreOk ∧ s.cur ≤ s.cfg.bufCap ∧ s.SessionOk := by
  refine ⟨fun h => ⟨h.storeOk, h.curRange, h.sessionOk⟩, fun ⟨hs, hc, hp⟩ => ?_⟩
  exact
    { legal := hs.legal
      memWf := hs.memWf
      memRange := hs.memRange
      acksetWf := hs.acksetWf
      reqWf := hs.reqOk.wf
      reqNonempty := hs.reqOk.nonempty
      lsnWf := hs.lsnWf
      tgtWf := hs.tgtWf
      curRange := hc
      idle :=
        { mp := fun hst => (sessionOk_waitStart hst).mp hp
          mpr := fun h0 => by_contra fun hst => (hp.cur_pos hst).ne' h0 }
      data := fun hst => (sessionOk_waitData hst).mp hp
      framed := fun hst => by
        have hf := hp.holdsMasterFrame hst
        exact ⟨le_trans (Nat.le_add_right 6 _) hf.1, hf⟩
      polled := fun hst => ((sessionOk_waitStartSlave hst).mp hp).2
      slaveData := fun hst => ((sessionOk_waitDataSlave hst).mp hp).2
      queues := fun x hx =>
        ⟨(hs.reqOk.entries x hx).depth,
          fun p hp => payloadOk_iff.mp ((hs.reqOk.entries x hx).payloads p hp)⟩
      constants := fun x hx => by
        cases hf : x.2.fallback with
        | const p => exact payloadOk_iff.mp ((hs.reqOk.entries x hx).constant p hf)
        | none | provider => trivial
      statics := hs.statics }

/-- The invariant speaks of no other field. -/
theorem State.Inv.frame {s t : State} (h : s.Inv)
    (ht : t = { s with
      prev := t.prev, connected := t.connected, frameBound := t.frameBound, tokenBound := t.tokenBound,
      rxq := t.rxq, trace := t.trace, answer := t.answer, inputs := t.inputs,
      provCalls := t.provCalls, picks := t.picks }) : t.Inv := by
  obtain ⟨hs, hc, hp⟩ := inv_iff.mp h
  rw [ht]
  exact inv_iff.mpr ⟨hs, hc, hp⟩

/-- A change of tables alone keeps the invariant, where it keeps the part about the tables. -/
theorem State.Inv.withTables {s t : State} (h : s.Inv) (hs : t.StoreOk)
    (ht : t = { s with
      ackset := t.ackset, req := t.req, lsn := t.lsn, tgt := t.tgt, answer := t.answer,
      provCalls := t.provCalls }) : t.Inv := by
  obtain ⟨-, hc, hp⟩ := inv_iff.mp h
  refine inv_iff.mpr ⟨hs, ?_⟩
  rw [ht]
  exact ⟨hc, hp⟩

/-- An idle session needs nothing of the buffer but its form and range. -/
theorem inv_of_idle {s : State} (h : s.StoreOk) (hst : s.st = .waitStart) (hc : s.cur = 0) :
    s.Inv :=
  inv_iff.mpr ⟨h, by omega, (sessionOk_waitStart hst).mpr hc⟩

/-! ### Reset -/

theorem reset_storeOk {c : Config} (h : c.legal = true) : (State.resetWith c).StoreOk where
  legal := h
  memWf := reset_memWf c
  memRange := nofun
  acksetWf := .nil
  reqOk := { wf := .nil, nonempty := nofun, entries := nofun }
  lsnWf := .nil
  tgtWf := seen_wf 0 c.staticTargets .nil
  statics := fun e => (mem_tableKeys_reset_tgt c e).mpr

theorem resetWith_inv {c : Config} (h : c.legal = true) : (State.resetWith c).Inv :=
  inv_of_idle (reset_storeOk h) rfl rfl

/-- Settles O48: an idle session over an empty buffer, with the static targets listed. -/
theorem resetMeetsTheInvariant : Obligations.ResetMeetsTheInvariant :=
  ⟨resetWith_inv (by decide), fun _ => resetWith_inv⟩

/-! ### The request table -/

theorem empty_entryOk (c : Config) : ReqEntry.empty.Ok c where
  depth := Nat.zero_le _
  payloads := nofun
  constant := nofun

/-- Every key's entry is within bounds, listed or not (R19). -/
theorem ReqOk.entry {s : State} (h : ReqOk s.cfg s.req) (k : Key) : (s.entry k).Ok s.cfg := by
  unfold State.entry
  cases hk : tableGet s.req k with
  | none => exact empty_entryOk _
  | some e => exact h.entries _ (mem_of_tableGet hk)

theorem ReqOk.setEntry {s : State} (h : ReqOk s.cfg s.req) (k : Key) {e : ReqEntry}
    (he : e.Ok s.cfg) : ReqOk s.cfg (s.setEntry k e).req where
  wf := setEntry_reqWf h.wf k e
  nonempty x hx := by
    obtain ⟨rfl, hne⟩ | hx := mem_setEntry hx
    · exact hne
    · exact h.nonempty x hx
  entries x hx := by
    obtain ⟨rfl, -⟩ | hx := mem_setEntry hx
    · exact he
    · exact h.entries x hx

/-- A queue whose front was served stays within bounds. -/
theorem ReqEntry.Ok.served {c : Config} {e : ReqEntry} {p : List Byte} {q : List (List Byte)}
    (h : e.Ok c) (hq : e.queue = p :: q) : ReqEntry.Ok c { e with queue := q } where
  depth := by
    have := h.depth
    simp only [hq, List.length_cons] at this
    exact Nat.le_of_succ_le this
  payloads x hx := h.payloads x (by simp [hq, hx])
  constant := h.constant

/-- R142: the oldest entry makes room where the queue is at its depth. -/
theorem length_enqueue_le {depth : Nat} {q : List (List Byte)} (hd : 1 ≤ depth)
    (hq : q.length ≤ depth) (p : List Byte) : (enqueue depth q p).length ≤ depth := by
  unfold enqueue
  split_ifs <;> simp only [List.length_append, List.length_drop, List.length_singleton] <;> omega

theorem mem_enqueue {depth : Nat} {q : List (List Byte)} {p x : List Byte}
    (h : x ∈ enqueue depth q p) : x ∈ q ∨ x = p := by
  unfold enqueue at h
  split_ifs at h
  · exact (List.mem_append.mp h).imp List.mem_of_mem_drop List.mem_singleton.mp
  · exact (List.mem_append.mp h).imp id List.mem_singleton.mp

theorem ReqEntry.Ok.enqueue {c : Config} {e : ReqEntry} {p : List Byte} (h : e.Ok c)
    (hd : 1 ≤ c.queueDepth) (hp : payloadOk p = true) :
    ReqEntry.Ok c { e with queue := Machine.enqueue c.queueDepth e.queue p } where
  depth := length_enqueue_le hd h.depth p
  payloads x hx := by
    obtain hx | rfl := mem_enqueue hx
    · exact h.payloads x hx
    · exact hp
  constant := h.constant

theorem ReqEntry.Ok.withFallback {c : Config} {e : ReqEntry} (h : e.Ok c) {f : Fallback}
    (hf : ∀ p, f = .const p → payloadOk p = true) : ReqEntry.Ok c { e with fallback := f } :=
  ⟨h.depth, h.payloads, hf⟩

/-- The token poll keeps the request table within bounds (R146, R147). -/
theorem ReqOk.afterPoll {s : State} (h : ReqOk s.cfg s.req) (a : Addr) (c : Byte) :
    ReqOk s.cfg (afterPoll s a c).req := by
  unfold Machine.afterPoll
  split
  · split
    · exact h.setEntry _ ((h.entry _).served ‹_›)
    · split <;> exact h
  · exact h

theorem StoreOk.afterPoll {s : State} (h : s.StoreOk) (a : Addr) (c : Byte) :
    (afterPoll s a c).StoreOk := by
  have hr := h.reqOk.afterPoll a c
  rw [afterPoll_frame]
  exact { h with reqOk := hr }

theorem StoreOk.polled {s : State} (h : s.StoreOk) : s.polled.StoreOk := h.afterPoll _ _

/-! ### What the buffer's operations keep -/

/-- The bounds R6 puts on the two sizes. -/
theorem StoreOk.sizes {s : State} (h : s.StoreOk) : 257 ≤ s.cfg.bufCap ∧ 1 ≤ s.cfg.queueDepth := by
  obtain ⟨-, -, -, -, -, -, -, -, hcap, hdepth⟩ := (legal_iff _).mp h.legal
  exact ⟨hcap, hdepth⟩

theorem StoreOk.writeBuf {s : State} (h : s.StoreOk) {i : Nat} (hi : i < s.cfg.bufCap) (b : Byte) :
    (s.writeBuf i b).StoreOk :=
  { h with
    memWf := memory_write_wf h.memWf _ _
    memRange := fun x hx => by
      obtain e | hx := memory_write_mem hx
      · rw [e]
        exact hi
      · exact h.memRange x hx }

theorem StoreOk.append {s : State} (h : s.StoreOk) (hroom : s.cur < s.cfg.bufCap) (b : Byte) :
    (s.append b).StoreOk := h.writeBuf hroom b

theorem StoreOk.startFrame {s : State} (h : s.StoreOk) (b : Byte) : (startFrame b s).StoreOk := by
  have hcap := h.sizes.1
  exact (h.writeBuf (i := 0) (by omega) s.cfg.masterStart).writeBuf (i := 1)
    (show 1 < s.cfg.bufCap by omega) b

/-- A byte below the cursor, after an append. -/
theorem readBuf_append_of_lt {s : State} {i : Nat} (hi : i < s.cur) (b : Byte) :
    (s.append b).readBuf i = s.readBuf i := by rw [readBuf_append, if_neg (by omega)]

theorem frameLen_append {s : State} (h : 5 ≤ s.cur) (b : Byte) :
    (s.append b).frameLen = s.frameLen := by
  unfold State.frameLen
  rw [readBuf_append_of_lt (by omega)]

/-- Bytes after the frame do not touch it. -/
theorem State.HoldsMasterFrame.append {s : State} (h : s.HoldsMasterFrame) (b : Byte) :
    (s.append b).HoldsMasterFrame := by
  obtain ⟨hlen, hvalid⟩ := h
  have hn : (s.append b).frameLen = s.frameLen := frameLen_append (by omega) b
  refine ⟨?_, ?_⟩
  · rw [hn, append_cur]
    omega
  · rw [hn, bufSlice_congr (s := s) fun k _ hk => readBuf_append_of_lt (by omega) b]
    exact hvalid

theorem slice_bufSlice (s : State) {i j k : Nat} (h : j ≤ k) :
    slice (s.bufSlice 0 k) i j = s.bufSlice i j := by
  apply List.ext_getElem
  · simp [slice]
    omega
  · intro n h1 h2
    simp [slice, State.bufSlice]

/-- R82, read off the buffer. -/
theorem masterFrameValid_bufSlice {s : State} (h0 : s.readBuf 0 = s.cfg.masterStart)
    (h1 : s.readBuf 1 ≠ s.cfg.masterStart) (hn : s.frameLen ≤ maxData) (hsum : s.frameSumOk = true) :
    masterFrameValid s.cfg (s.bufSlice 0 (6 + s.frameLen)) = true := by
  have hb : ∀ k, k < 6 + s.frameLen → byteAt (s.bufSlice 0 (6 + s.frameLen)) k = s.readBuf k :=
    fun k hk => by rw [byteAt_bufSlice (by omega), Nat.zero_add]
  have h4 : (byteAt (s.bufSlice 0 (6 + s.frameLen)) 4).toNat = s.frameLen := by
    rw [hb 4 (by omega)]
    rfl
  simp only [masterFrameValid, h4, hb 0 (by omega), hb 1 (by omega), hb (5 + s.frameLen) (by omega),
    bufSlice_length, slice_bufSlice s (show 5 + s.frameLen ≤ 6 + s.frameLen by omega)]
  simpa [h0, h1, hn, State.frameSumOk] using hsum

/-! ### The tests after an append in `WaitData` -/

theorem of_dataClass_append {s : State} (h : s.dataClass = .append) :
    5 ≤ s.cur → (s.cur = 5 → s.frameLen ≤ maxData) ∧ s.cur < 6 + s.frameLen := by
  unfold State.dataClass at h
  split_ifs at h
  · omega
  · omega

theorem of_dataClass_valid {s : State} (h : s.dataClass = .valid) :
    5 ≤ s.cur ∧ (s.cur = 5 → s.frameLen ≤ maxData) ∧ 6 + s.frameLen ≤ s.cur ∧
      s.frameSumOk = true := by
  unfold State.dataClass at h
  split_ifs at h
  exact ⟨by omega, by omega, by omega, ‹_›⟩

/-- R94: inside the frame the append keeps clause (ii). -/
theorem State.InMasterFrame.append {s : State} (h : s.InMasterFrame) {b : Byte}
    (hd : (s.append b).dataClass = .append) : (s.append b).InMasterFrame := by
  obtain ⟨h2, h0, h1, hlen⟩ := h
  refine ⟨?_, ?_, ?_, fun h5 => ?_⟩
  · rw [append_cur]
    omega
  · rw [readBuf_append_of_lt (by omega)]
    exact h0
  · rw [readBuf_append_of_lt (by omega)]
    exact h1
  · obtain ⟨hmax, hlt⟩ := of_dataClass_append hd h5
    refine ⟨?_, hlt⟩
    rw [append_cur] at h5 hmax
    by_cases hc : s.cur = 4
    · exact hmax (by omega)
    · rw [frameLen_append (by omega)]
      exact (hlen (by omega)).1

/-- R97: the last byte, with the right checksum, gives clause (iii), and no byte follows the frame yet. -/
theorem holdsMasterFrame_of_valid {s : State} (h : s.InMasterFrame) {b : Byte}
    (hd : (s.append b).dataClass = .valid) :
    (s.append b).HoldsMasterFrame ∧ (s.append b).cur = 6 + (s.append b).frameLen := by
  obtain ⟨h2, h0, h1, hlen⟩ := h
  obtain ⟨-, -, hge, hsum⟩ := of_dataClass_valid hd
  have hcur := append_cur s b
  have hn : (s.append b).frameLen = s.frameLen := frameLen_append (by omega) b
  obtain ⟨hmax, hlt⟩ := hlen (by omega)
  refine ⟨⟨hge, masterFrameValid_bufSlice ?_ ?_ ?_ hsum⟩, by omega⟩
  · rw [readBuf_append_of_lt (by omega)]
    exact h0
  · rw [readBuf_append_of_lt (by omega)]
    exact h1
  · omega

/-- R103: only a frame without data is observed as a poll. -/
theorem frameLen_of_pollObs {s : State} (h : s.dispatchClass = .pollObs) : s.frameLen = 0 := by
  unfold State.dispatchClass at h
  split_ifs at h with h1 h2 h3
  · split at h
    · split_ifs at h
    · cases h
    · cases h
  · exact h3

/-! ### The rules of the parser -/

/-- The flush leads from any session to the invariant (R118). -/
theorem complete_inv {s : State} (h : s.StoreOk) (seed : Byte) : (complete seed s).Inv := by
  have hf := (complete_flushed seed s).1
  rw [complete_mem] at hf
  rw [hf]
  exact inv_of_idle h rfl rfl

theorem raiseError_inv {s : State} (h : s.StoreOk) (e : ErrorClass) : (raiseError e s).Inv :=
  complete_inv (s := s.emit [.log e]) h 0

theorem ackAndComplete_inv {s : State} (h : s.StoreOk) : Yields State.Inv (ackAndComplete s) := by
  refine (pushByte_yields _ _).andThen ?_
  rintro _ ⟨hroom, rfl⟩
  exact yields_next.mpr (complete_inv (StoreOk.append (s := sendBytes _ s) h hroom _) 0)

theorem classifyAck_inv {s : State} (h : s.StoreOk) (b : Byte) : (classifyAck b s).Inv := by
  unfold classifyAck
  split_ifs
  · exact complete_inv h _
  · exact complete_inv h _
  · exact complete_inv (s := { s with cur := s.cur - 1 }) h _
  · exact raiseError_inv h _

theorem execAckh_inv {s : State} (h : s.StoreOk) (b : Byte) : Yields State.Inv (execAckh b s) := by
  refine (pushByte_yields b s).andThen ?_
  rintro _ ⟨hroom, rfl⟩
  exact yields_next.mpr (classifyAck_inv (h.append hroom b) b)

/-- R100: the payload is copied after the frame. -/
theorem answerPoll_inv {s : State} (h : s.StoreOk) (hc : s.cur ≤ s.cfg.bufCap)
    (hf : s.HoldsMasterFrame) (p : List Byte) : Yields State.Inv (answerPoll p s) := by
  refine (pushBytes_yields (P := fun u => u.StoreOk ∧ u.cur ≤ u.cfg.bufCap ∧ u.HoldsMasterFrame)
    (fun b u hu => ?_) p (s := sendBytes p s) ⟨h, hc, hf⟩).andThen fun t ht => ?_
  · obtain ⟨hu, -, hf⟩ := hu
    refine (pushByte_yields b u).mono ?_
    rintro _ ⟨hroom, rfl⟩
    exact ⟨hu.append hroom b, hroom, hf.append b⟩
  · exact yields_next.mpr (inv_iff.mpr ht)

/-- R99 to R104: a valid frame, just complete, is dispatched. -/
theorem execDispatch_inv {s : State} (h : s.StoreOk) (hc : s.cur ≤ s.cfg.bufCap)
    (hf : s.HoldsMasterFrame) (hend : s.cur = 6 + s.frameLen) :
    Yields State.Inv (execDispatch s) := by
  unfold execDispatch
  cases hd : s.dispatchClass with
  | pollAns p =>
    have hp : s.polled.cur ≤ s.polled.cfg.bufCap ∧ s.polled.HoldsMasterFrame := by
      rw [polled_frame]
      exact ⟨hc, hf⟩
    exact answerPoll_inv h.polled hp.1 hp.2 p
  | pollAck => exact ackAndComplete_inv h.polled
  | dataAck => exact ackAndComplete_inv h
  | pollObs =>
    have hn : s.frameLen = 0 := frameLen_of_pollObs hd
    rw [hn] at hend
    exact yields_next.mpr (inv_iff.mpr ⟨h, hc, hf, hn, hend⟩)
  | dataObs => exact yields_next.mpr (inv_iff.mpr ⟨h, hc, hf⟩)
  | outOfContract => exact yields_refused _ _

theorem waitStartRules_inv {s : State} (h : s.Inv) (b : Byte) : (waitStartRules b s).Inv := by
  unfold waitStartRules
  split_ifs with hp hb
  · exact h.frame rfl
  · have hs := h.storeOk
    have hcap := hs.sizes.1
    refine inv_iff.mpr ⟨hs.startFrame b, show 2 ≤ s.cfg.bufCap by omega, le_refl 2, ?_, ?_, ?_⟩
    · rw [readBuf_startFrame, if_pos rfl]
      rfl
    · rw [readBuf_startFrame, if_neg (by decide), if_pos rfl]
      exact hb
    · exact fun h5 => absurd h5 (by simp)
  · exact h.frame rfl

theorem waitDataRules_inv {s : State} (h : s.StoreOk) (hf : s.InMasterFrame) (hst : s.st = .waitData)
    (b : Byte) : Yields State.Inv (waitDataRules b s) := by
  refine (pushByte_yields b s).andThen ?_
  rintro _ ⟨hroom, rfl⟩
  have hs := h.append hroom b
  cases hd : (s.append b).dataClass with
  | append =>
    have hp := (sessionOk_waitData (s := s.append b) hst).mpr (hf.append hd)
    exact yields_next.mpr (inv_iff.mpr ⟨hs, hroom, hp⟩)
  | badLen | badSum => exact yields_next.mpr (raiseError_inv hs _)
  | valid =>
    obtain ⟨hv, hend⟩ := holdsMasterFrame_of_valid hf hd
    exact execDispatch_inv hs hroom hv hend

/-- R110: after the poll's six bytes the slave marker stands at offset 6. -/
theorem waitStartSlaveRules_inv {s : State} (h : s.StoreOk) (hf : s.HoldsMasterFrame)
    (hcur : s.cur = 6) (b : Byte) : Yields State.Inv (waitStartSlaveRules b s) := by
  refine Yields.ite (fun hb => (pushByte_yields b s).andThen ?_) fun _ => execAckh_inv h b
  rintro _ ⟨hroom, rfl⟩
  refine yields_next.mpr (inv_iff.mpr ⟨h.append hroom b, hroom, hf.append b, hcur, ?_, ?_, ?_⟩)
  · exact (readBuf_append s b s.cur).trans ((if_pos rfl).trans hb)
  · exact Nat.lt_succ_self s.cur
  · simp [State.slaveDone]

/-- R112, R113. -/
theorem waitDataSlaveRules_inv {s : State} (h : s.StoreOk) (hf : s.HoldsMasterFrame)
    (hsf : s.InSlaveFrame) (hst : s.st = .waitDataSlave) (b : Byte) :
    Yields State.Inv (waitDataSlaveRules b s) := by
  refine (pushByte_yields b s).andThen ?_
  rintro _ ⟨hroom, rfl⟩
  refine yields_next.mpr ?_
  have hs := h.append hroom b
  split_ifs with hd
  · exact inv_iff.mpr ⟨hs, hroom, hf.append b⟩
  · obtain ⟨horg, hmark, hlt, -⟩ := hsf
    have hsf' : (s.append b).InSlaveFrame :=
      ⟨horg, (readBuf_append_of_lt hlt b).trans hmark, Nat.lt_succ_of_lt hlt, by simpa using hd⟩
    exact inv_iff.mpr
      ⟨hs, hroom, (sessionOk_waitDataSlave (s := s.append b) hst).mpr ⟨hf.append b, hsf'⟩⟩

/-- The case on `st` keeps the invariant. -/
theorem parserRules_inv {s : State} (h : s.Inv) (b : Byte) : Yields State.Inv (parserRules b s) := by
  obtain ⟨hs, -, hp⟩ := inv_iff.mp h
  unfold parserRules
  cases hst : s.st with
  | waitStart => exact yields_next.mpr (waitStartRules_inv h b)
  | waitData => exact waitDataRules_inv hs ((sessionOk_waitData hst).mp hp) hst b
  | waitStartSlave =>
    obtain ⟨hf, -, hcur⟩ := (sessionOk_waitStartSlave hst).mp hp
    exact waitStartSlaveRules_inv hs hf hcur b
  | waitDataSlave =>
    obtain ⟨hf, hsf⟩ := (sessionOk_waitDataSlave hst).mp hp
    exact waitDataSlaveRules_inv hs hf hsf hst b
  | waitAck => exact execAckh_inv hs b

theorem overflowGuard_inv {s : State} (h : s.Inv) : (overflowGuard s).Inv := by
  unfold overflowGuard
  split_ifs
  · exact raiseError_inv h.storeOk _
  · exact h

/-- Every received byte keeps the invariant. -/
theorem consumeByte_inv {s : State} (h : s.Inv) (b : Byte) : Yields State.Inv (consumeByte b s) :=
  parserRules_inv (overflowGuard_inv h) b

/-! ### The operations of the bus and the host -/

theorem execLoop_inv {s : State} (h : s.Inv) : Yields State.Inv (execLoop s) := by
  refine Yields.andThen (Q := State.Inv) (.ite (fun _ => ?_) fun _ => yields_next.mpr h)
    fun t ht => yields_next.mpr (ht.frame rfl)
  exact drain_yields (fun b u hu => consumeByte_inv hu b) (fun u bs hu => hu.frame rfl) _ h

theorem execSetack_inv {s : State} (h : s.Inv) (a : Addr) (en : Bool) :
    Yields State.Inv (execSetack a en s) := by
  refine yields_next.mpr (h.withTables { h.storeOk with acksetWf := ?_ } rfl)
  cases en with
  | true => exact setInsert_wf addrCode_inj h.acksetWf a
  | false => exact setErase_wf h.acksetWf a

/-- An entry within bounds may be set. -/
theorem State.Inv.setEntry {s : State} (h : s.Inv) (k : Key) {e : ReqEntry} (he : e.Ok s.cfg) (v : Answer) :
    ((s.setEntry k e).reply v).Inv :=
  have hs := h.storeOk
  h.withTables { hs with reqOk := hs.reqOk.setEntry k he } rfl

theorem execEnq_inv {s : State} (h : s.Inv) (a : Addr) (t : Byte) (p : List Byte) :
    Yields State.Inv (execEnq a t p s) := by
  have hs := h.storeOk
  exact .ite
    (fun hp => yields_next.mpr (h.setEntry _ ((hs.reqOk.entry _).enqueue hs.sizes.2 hp) _))
    fun _ => yields_next.mpr (h.frame rfl)

theorem execSetprov_inv {s : State} (h : s.Inv) (a : Addr) (t : Byte) (pid : ProviderId) :
    Yields State.Inv (execSetprov a t pid s) :=
  yields_next.mpr (h.setEntry _ ((h.storeOk.reqOk.entry _).withFallback (f := .provider pid) nofun) _)

theorem execSetconst_inv {s : State} (h : s.Inv) (a : Addr) (t : Byte) (p : List Byte) :
    Yields State.Inv (execSetconst a t p s) := by
  refine .ite (fun hp => yields_next.mpr (h.setEntry _ (.withFallback ?_ ?_) _))
    fun _ => yields_next.mpr (h.frame rfl)
  · exact h.storeOk.reqOk.entry _
  · rintro _ ⟨⟩
    exact hp

theorem execAddlsn_inv {s : State} (h : s.Inv) (a : Addr) (c : Byte) (lid : ListenerId) :
    Yields State.Inv (execAddlsn a c lid s) :=
  have hl := tableSet_wf keyCode_inj h.lsnWf ⟨a, c⟩ lid
  yields_next.mpr (h.withTables { h.storeOk with lsnWf := hl } rfl)

/-- REFRESH adds a target and forgets none. -/
theorem execRefresh_inv {s : State} (h : s.Inv) (e : Endpoint) (now : Nat) :
    Yields State.Inv (execRefresh e now s) := by
  refine yields_next.mpr (h.withTables
    { h.storeOk with tgtWf := tableSet_wf (fun _ _ e => e) h.tgtWf e now, statics := ?_ } rfl)
  exact fun x hx => (mem_tableKeys_tableSet id s.tgt e x now).mpr (.inr (h.statics x hx))

/-- SWEEP never drops a static target (R161). -/
theorem static_mem_sweepTargets (c : Config) (now : Nat) (t : List (Endpoint × Nat)) {e : Endpoint}
    (he : e ∈ c.staticTargets) : e ∈ tableKeys (sweepTargets c now t) := by
  obtain ⟨⟨_, n⟩, hx, rfl⟩ :=
    List.mem_map.mp ((mem_tableKeys_seen now c.staticTargets t e).mpr (.inl he))
  exact List.mem_map_of_mem (List.mem_filter.mpr ⟨hx, by simp [he]⟩)

theorem execSweep_inv {s : State} (h : s.Inv) (now : Nat) : Yields State.Inv (execSweep now s) :=
  have hwf := (seen_wf now s.cfg.staticTargets h.tgtWf).filter _
  have hst := fun e => static_mem_sweepTargets s.cfg now s.tgt (e := e)
  yields_next.mpr (h.withTables { h.storeOk with tgtWf := hwf, statics := hst } rfl)

/-- Every wire format and every command keeps the invariant. -/
theorem exec_external_inv {i : Instr} {s : State} (hi : isExternal s.cfg i = true) (h : s.Inv) :
    Yields State.Inv (exec i s) := by
  cases i with
  | mframe | sframe => exact .ite (fun _ => yields_next.mpr (h.frame rfl)) fun _ => yields_refused _ _
  | setack => exact execSetack_inv h _ _
  | enq => exact execEnq_inv h _ _ _
  | setprov => exact execSetprov_inv h _ _ _
  | setconst => exact execSetconst_inv h _ _ _
  | addlsn => exact execAddlsn_inv h _ _ _
  | refresh => exact execRefresh_inv h _ _
  | sweep => exact execSweep_inv h _
  | loop => exact execLoop_inv h
  | consume b => exact (consumeByte_inv h b).andThen fun t ht => yields_next.mpr (ht.frame rfl)
  | ackbyte | nakbyte | connect | disconnect | connected | inprog | onframe | ontoken =>
    exact yields_next.mpr (h.frame rfl)
  | _ => exact absurd hi Bool.false_ne_true

/-- What the decoder answers keeps the invariant: the row of a byte by `consumeByte_inv`, anything else by
`exec_external_inv`. -/
theorem exec_decoded_inv {s : State} (h : s.Inv) {inp : Input} {i : Instr}
    (hd : decodeInput s inp = .ok i) : Yields State.Inv (exec i s) := by
  obtain ⟨b, rfl⟩ | hi := decodeInput_ok hd
  · rw [exec_selectRow]
    exact consumeByte_inv h b
  · exact exec_external_inv hi h

/-- Settles O49: taking an input and letting bytes arrive touch nothing the invariant speaks of, and the decoded
operation keeps it. -/
theorem everyStepKeepsTheInvariant : Obligations.EveryStepKeepsTheInvariant := fun s _ h =>
  step_yields h (fun _ rest _ => exec_decoded_inv (s := { s with inputs := rest }) (h.frame rfl))
    (fun _ _ => h.frame rfl) _

end Sys2Proof.Machine

/-! ## Bytes of the buffer at or above the cursor (R12): two runs that differ only there go on alike -/

namespace Sys2Proof.Machine

/-! ### Related outcomes -/

theorem outcomeRel_next {r : State → State → Prop} {s t : State} (h : r s t) :
    OutcomeRel r (.next s) (.next t) := h

theorem outcomeRel_ite {r : State → State → Prop} {p : Prop} [Decidable p] {a a' b b' : Result}
    (ha : OutcomeRel r a a') (hb : OutcomeRel r b b') :
    OutcomeRel r (if p then a else b) (if p then a' else b') := by
  split_ifs
  · exact ha
  · exact hb

theorem outcomeRel_andThen {r q : State → State → Prop} {o o' : Result} {f g : State → Result}
    (ho : OutcomeRel r o o') (hf : ∀ s t, r s t → OutcomeRel q (f s) (g t)) :
    OutcomeRel q (andThen o f) (andThen o' g) := by
  cases o with
  | next s =>
    cases o' with
    | next t => exact hf s t ho
    | fault | refused => exact ho.elim
  | fault e =>
    cases o' with
    | fault => exact ho
    | next | refused => exact ho.elim
  | refused e =>
    cases o' with
    | refused => exact ho
    | next | fault => exact ho.elim

/-! ### What does not read the buffer -/

/-- The same state over another buffer. -/
def State.withMem (s : State) (m : List Host.Cell) : State := { s with mem := m }

theorem deliverTranscript_withMem (tr : List Byte) (s : State) (m : List Host.Cell) :
    deliverTranscript tr (s.withMem m) = (deliverTranscript tr s).withMem m := by
  have hb : (s.withMem m).frameBound = s.frameBound := rfl
  unfold deliverTranscript
  rw [hb]
  split_ifs <;> rfl

theorem afterPoll_withMem (s : State) (a : Addr) (c : Byte) (m : List Host.Cell) :
    afterPoll (s.withMem m) a c = (afterPoll s a c).withMem m := by
  have hb : (s.withMem m).tokenBound = s.tokenBound := rfl
  have he : (s.withMem m).entry ⟨a, c⟩ = s.entry ⟨a, c⟩ := rfl
  unfold afterPoll
  rw [hb, he]
  split
  · split
    · rfl
    · split <;> rfl
  · rfl

section Stale

variable {s t : State}

/-- An operation that leaves buffer and cursor and is blind to the buffer keeps the relation; so does one that
moves the cursor down. -/
theorem StaleEq.map (h : StaleEq s t) {f : State → State}
    (hf : ∀ m, f (s.withMem m) = (f s).withMem m) (hmem : (f s).mem = s.mem)
    (hcur : (f s).cur ≤ s.cur) : StaleEq (f s) (f t) := by
  have ht : f t = (f s).withMem t.mem := (congrArg f h.1).trans (hf t.mem)
  rw [ht]
  exact ⟨rfl, fun i hi => (h.2 i (lt_of_lt_of_le hi hcur)).trans (readBuf_congr hmem i).symm⟩

theorem StaleEq.exists_withMem (h : StaleEq s t) : ∃ m, t = s.withMem m := ⟨t.mem, h.1⟩

/-- The two states over their own buffers, after a change that is blind to the buffer. -/
theorem StaleEq.of_withMem (h : StaleEq s t) {u v : State} (hv : v = u.withMem t.mem)
    (hmem : u.mem = s.mem) (hcur : u.cur = s.cur) : StaleEq u v := by
  rw [hv]
  exact ⟨rfl, fun i hi => (h.2 i (hcur ▸ hi)).trans (readBuf_congr hmem i).symm⟩

theorem StaleEq.cfg (h : StaleEq s t) : t.cfg = s.cfg := by rw [h.1]
theorem StaleEq.st (h : StaleEq s t) : t.st = s.st := by rw [h.1]
theorem StaleEq.cur (h : StaleEq s t) : t.cur = s.cur := by rw [h.1]
theorem StaleEq.sorg (h : StaleEq s t) : t.sorg = s.sorg := by rw [h.1]
theorem StaleEq.prev (h : StaleEq s t) : t.prev = s.prev := by rw [h.1]
theorem StaleEq.connected (h : StaleEq s t) : t.connected = s.connected := by rw [h.1]
theorem StaleEq.ackset (h : StaleEq s t) : t.ackset = s.ackset := by rw [h.1]
theorem StaleEq.rxq (h : StaleEq s t) : t.rxq = s.rxq := by rw [h.1]
theorem StaleEq.inputs (h : StaleEq s t) : t.inputs = s.inputs := by rw [h.1]

theorem StaleEq.pollAnswer (h : StaleEq s t) (a : Addr) (c : Byte) :
    pollAnswer t a c = pollAnswer s a c := by
  rw [h.1]
  rfl

theorem StaleEq.overflowing (h : StaleEq s t) : t.overflowing = s.overflowing := by
  rw [h.1]
  rfl

/-! ### What is read lies below the cursor -/

theorem StaleEq.bufSlice (h : StaleEq s t) (i : Nat) {j : Nat} (hj : j ≤ s.cur) :
    t.bufSlice i j = s.bufSlice i j :=
  bufSlice_congr fun k _ hk => h.2 k (lt_of_lt_of_le hk hj)

theorem StaleEq.transcript (h : StaleEq s t) : t.transcript = s.transcript := by
  rw [State.transcript, h.cur, h.bufSlice 0 le_rfl, State.transcript]

theorem StaleEq.frameLen (h : StaleEq s t) (hc : 5 ≤ s.cur) : t.frameLen = s.frameLen := by
  unfold State.frameLen
  rw [h.2 4 (by omega)]

theorem StaleEq.frameAddr (h : StaleEq s t) (hc : 5 ≤ s.cur) : t.frameAddr = s.frameAddr := by
  unfold State.frameAddr
  rw [h.2 1 (by omega), h.2 2 (by omega)]

theorem StaleEq.frameCmd (h : StaleEq s t) (hc : 5 ≤ s.cur) : t.frameCmd = s.frameCmd :=
  h.2 3 (by omega)

theorem StaleEq.frameSumOk (h : StaleEq s t) (hc : 5 ≤ s.cur) (hn : 6 + s.frameLen ≤ s.cur) :
    t.frameSumOk = s.frameSumOk := by
  unfold State.frameSumOk
  rw [h.cfg, h.frameLen hc, h.bufSlice 1 (by omega), h.2 (5 + s.frameLen) (by omega)]

/-- The tests of `WD(b)` ask for the cursor before they read (R94 to R97). -/
theorem StaleEq.dataClass (h : StaleEq s t) : t.dataClass = s.dataClass := by
  unfold State.dataClass
  rw [h.cur]
  by_cases hc : s.cur < 5
  · rw [if_pos hc, if_pos hc]
  · rw [if_neg hc, if_neg hc, h.frameLen (by omega)]
    by_cases hn : s.cur < 6 + s.frameLen
    · simp only [if_pos hn]
    · rw [h.frameSumOk (by omega) (by omega)]

/-- The test of `WDS(b)` reads the length byte of a slave frame that holds one (R113). -/
theorem StaleEq.slaveDone (h : StaleEq s t) : t.slaveDone = s.slaveDone := by
  unfold State.slaveDone
  rw [h.cur, h.sorg]
  by_cases hc : 3 ≤ s.cur - s.sorg
  · rw [h.2 (s.sorg + 2) (by omega)]
  · simp [hc]

theorem StaleEq.dispatchClass (h : StaleEq s t) (hc : 5 ≤ s.cur) :
    t.dispatchClass = s.dispatchClass := by
  unfold State.dispatchClass
  rw [h.frameAddr hc, h.frameCmd hc, h.frameLen hc, h.ackset, h.pollAnswer]

/-! ### The shared operations -/

theorem StaleEq.append (h : StaleEq s t) (b : Byte) : StaleEq (s.append b) (t.append b) := by
  refine ⟨?_, fun i hi => ?_⟩
  · rw [h.1]
    rfl
  · rw [readBuf_append, readBuf_append, h.cur]
    rw [append_cur] at hi
    split_ifs with he
    · rfl
    · exact h.2 i (by omega)

theorem pushByte_stale (b : Byte) (h : StaleEq s t) :
    OutcomeRel StaleEq (pushByte b s) (pushByte b t) := by
  unfold pushByte
  rw [h.cfg, h.cur]
  exact outcomeRel_ite rfl (outcomeRel_next (h.append b))

theorem pushBytes_stale (bs : List Byte) (h : StaleEq s t) :
    OutcomeRel StaleEq (pushBytes bs s) (pushBytes bs t) := by
  induction bs generalizing s t with
  | nil => exact h
  | cons b bs ih => exact outcomeRel_andThen (pushByte_stale b h) fun _ _ => ih

theorem StaleEq.sendBytes (h : StaleEq s t) (p : List Byte) :
    StaleEq (sendBytes p s) (sendBytes p t) := h.map (fun _ => rfl) rfl le_rfl

theorem StaleEq.polled (h : StaleEq s t) (hc : 5 ≤ s.cur) : StaleEq s.polled t.polled := by
  have hf := afterPoll_frame s s.frameAddr s.frameCmd
  unfold State.polled
  rw [h.frameAddr hc, h.frameCmd hc]
  refine h.map (f := fun u => afterPoll u s.frameAddr s.frameCmd) (afterPoll_withMem s _ _) ?_ ?_
  · rw [hf]
  · rw [hf]

/-- The flush delivers the transcript, which lies below the cursor (R118). -/
theorem StaleEq.complete (h : StaleEq s t) (seed : Byte) :
    StaleEq (complete seed s) (complete seed t) := by
  have hmem := complete_mem seed s
  unfold Machine.complete at hmem ⊢
  rw [h.transcript]
  refine h.map (f := fun u => (deliverTranscript s.transcript u).idle seed) (fun m => ?_) hmem
    (Nat.zero_le _)
  rw [deliverTranscript_withMem]
  rfl

theorem StaleEq.raiseError (h : StaleEq s t) (e : ErrorClass) :
    StaleEq (raiseError e s) (raiseError e t) :=
  StaleEq.complete (h.map (f := fun u => u.emit [.log e]) (fun _ => rfl) rfl le_rfl) 0

theorem StaleEq.withSt (h : StaleEq s t) (st : ParserState) :
    StaleEq { s with st := st } { t with st := st } :=
  h.map (f := fun u => { u with st := st }) (fun _ => rfl) rfl le_rfl

theorem answerPoll_stale (h : StaleEq s t) (p : List Byte) :
    OutcomeRel StaleEq (answerPoll p s) (answerPoll p t) :=
  outcomeRel_andThen (pushBytes_stale p (h.sendBytes p)) fun _ _ hu => hu.withSt .waitAck

theorem ackAndComplete_stale (h : StaleEq s t) :
    OutcomeRel StaleEq (ackAndComplete s) (ackAndComplete t) := by
  unfold ackAndComplete
  rw [h.cfg]
  exact outcomeRel_andThen (pushByte_stale _ (h.sendBytes _)) fun _ _ hu => hu.complete 0

theorem execDispatch_stale (h : StaleEq s t) (hc : 5 ≤ s.cur) :
    OutcomeRel StaleEq (execDispatch s) (execDispatch t) := by
  unfold execDispatch
  rw [h.dispatchClass hc]
  cases s.dispatchClass with
  | pollAns p => exact answerPoll_stale (h.polled hc) p
  | pollAck => exact ackAndComplete_stale (h.polled hc)
  | dataAck => exact ackAndComplete_stale h
  | pollObs | dataObs => exact outcomeRel_next (h.withSt _)
  | outOfContract => rfl

theorem StaleEq.finishMark (h : StaleEq s t) : StaleEq (finishMark s) (finishMark t) := by
  have hu := h.map (f := fun u => { u with cur := u.cur - 1 }) (fun _ => rfl) rfl (Nat.sub_le _ _)
  obtain ⟨m, rfl⟩ := h.exists_withMem
  exact hu.complete s.cfg.masterStart

theorem StaleEq.classifyAck (h : StaleEq s t) (b : Byte) :
    StaleEq (classifyAck b s) (classifyAck b t) := by
  unfold Machine.classifyAck
  rw [h.cfg]
  split_ifs
  · exact h.complete 0
  · exact h.complete 0
  · exact h.finishMark
  · exact h.raiseError _

theorem execAckh_stale (h : StaleEq s t) (b : Byte) :
    OutcomeRel StaleEq (execAckh b s) (execAckh b t) :=
  outcomeRel_andThen (pushByte_stale b h) fun _ _ hu => outcomeRel_next (hu.classifyAck b)

/-! ### The rules of the parser -/

/-- A frame start writes all that lies below the new cursor (R93). -/
theorem StaleEq.startFrame (h : StaleEq s t) (b : Byte) :
    StaleEq (startFrame b s) (startFrame b t) := by
  refine ⟨?_, fun i hi => ?_⟩
  · rw [h.1]
    rfl
  · rw [readBuf_startFrame, readBuf_startFrame, h.cfg]
    rw [startFrame_cur] at hi
    split_ifs
    · rfl
    · rfl
    · omega

theorem StaleEq.waitStartRules (h : StaleEq s t) (b : Byte) :
    StaleEq (waitStartRules b s) (waitStartRules b t) := by
  unfold Machine.waitStartRules
  rw [h.cfg, h.prev]
  split_ifs
  · exact h.map (f := dropDoubled) (fun _ => rfl) rfl le_rfl
  · exact h.startFrame b
  · exact h.map (f := slideWindow b) (fun _ => rfl) rfl le_rfl

theorem waitDataRules_stale (h : StaleEq s t) (b : Byte) :
    OutcomeRel StaleEq (waitDataRules b s) (waitDataRules b t) := by
  refine outcomeRel_andThen (pushByte_stale b h) fun u v hu => ?_
  rw [hu.dataClass]
  cases hd : u.dataClass with
  | append => exact hu
  | badLen | badSum => exact outcomeRel_next (hu.raiseError _)
  | valid => exact execDispatch_stale hu (of_dataClass_valid hd).1

theorem waitStartSlaveRules_stale (h : StaleEq s t) (b : Byte) :
    OutcomeRel StaleEq (waitStartSlaveRules b s) (waitStartSlaveRules b t) := by
  unfold waitStartSlaveRules
  rw [h.cfg, h.cur]
  refine outcomeRel_ite (outcomeRel_andThen (pushByte_stale b h) fun u v hu => ?_) (execAckh_stale h b)
  exact outcomeRel_next (hu.map (f := fun w => { w with sorg := s.cur, st := .waitDataSlave })
    (fun _ => rfl) rfl le_rfl)

theorem waitDataSlaveRules_stale (h : StaleEq s t) (b : Byte) :
    OutcomeRel StaleEq (waitDataSlaveRules b s) (waitDataSlaveRules b t) := by
  refine outcomeRel_andThen (pushByte_stale b h) fun u v hu => outcomeRel_next ?_
  rw [hu.slaveDone]
  split_ifs
  · exact hu.withSt _
  · exact hu

theorem parserRules_stale (h : StaleEq s t) (b : Byte) :
    OutcomeRel StaleEq (parserRules b s) (parserRules b t) := by
  unfold parserRules
  rw [h.st]
  cases s.st with
  | waitStart => exact outcomeRel_next (h.waitStartRules b)
  | waitData => exact waitDataRules_stale h b
  | waitStartSlave => exact waitStartSlaveRules_stale h b
  | waitDataSlave => exact waitDataSlaveRules_stale h b
  | waitAck => exact execAckh_stale h b

theorem StaleEq.overflowGuard (h : StaleEq s t) : StaleEq (overflowGuard s) (overflowGuard t) := by
  unfold Machine.overflowGuard
  rw [h.overflowing]
  split_ifs
  · exact h.raiseError _
  · exact h

/-- A received byte never meets a stale byte. -/
theorem consumeByte_stale (h : StaleEq s t) (b : Byte) :
    OutcomeRel StaleEq (consumeByte b s) (consumeByte b t) := parserRules_stale h.overflowGuard b

/-! ### The operations of the bus and the host, and the step -/

theorem drain_stale (bs : List Byte) (h : StaleEq s t) :
    OutcomeRel StaleEq (drain bs s) (drain bs t) := by
  induction bs generalizing s t with
  | nil => exact outcomeRel_next (h.map (f := fun u => { u with rxq := [] }) (fun _ => rfl) rfl le_rfl)
  | cons b bs ih =>
    refine outcomeRel_andThen (consumeByte_stale ?_ b) fun _ _ => ih
    exact h.map (f := fun u => { u with rxq := bs }) (fun _ => rfl) rfl le_rfl

theorem StaleEq.reply (h : StaleEq s t) (v : Answer) : StaleEq (s.reply v) (t.reply v) :=
  h.map (f := fun u => u.reply v) (fun _ => rfl) rfl le_rfl

theorem execLoop_stale (h : StaleEq s t) : OutcomeRel StaleEq (execLoop s) (execLoop t) := by
  unfold execLoop
  rw [h.connected, h.rxq]
  exact outcomeRel_andThen (outcomeRel_ite (drain_stale _ h) h) fun _ _ hu =>
    outcomeRel_next (hu.reply .done)

/-- Every wire format and every command: but for the received bytes of LOOP and CONSUME, none of them looks at
the buffer or moves the cursor. -/
theorem exec_external_stale {i : Instr} (hi : isExternal s.cfg i = true) (h : StaleEq s t) :
    OutcomeRel StaleEq (exec i s) (exec i t) := by
  obtain ⟨m, rfl⟩ := h.exists_withMem
  cases i with
  | loop => exact execLoop_stale h
  | consume b =>
    exact outcomeRel_andThen (consumeByte_stale h b) fun _ _ hu => outcomeRel_next (hu.reply .done)
  | mframe | sframe => exact outcomeRel_ite (outcomeRel_next (h.of_withMem rfl rfl rfl)) rfl
  | enq | setconst =>
    exact outcomeRel_ite (outcomeRel_next (h.of_withMem rfl rfl rfl))
      (outcomeRel_next (h.reply .refused))
  | ackbyte | nakbyte | setack | setprov | addlsn | refresh | sweep | connect | disconnect
  | connected | inprog | onframe | ontoken =>
    exact outcomeRel_next (h.of_withMem rfl rfl rfl)
  | _ => exact absurd hi Bool.false_ne_true

theorem step_stale_of_illegal (h : StaleEq s t) (hl : s.cfg.legal = false) :
    OutcomeRel StaleEq (step s) (step t) := by
  rw [step_of_illegal hl, step_of_illegal (by rw [h.cfg, hl])]
  rfl

/-- The step that takes an input. -/
theorem step_stale_of_input (h : StaleEq s t) (hs : s.cfg.legal = true) {inp : Input}
    {rest : List Input} (hi : s.inputs = inp :: rest) : OutcomeRel StaleEq (step s) (step t) := by
  have ht : t.cfg.legal = true := by rw [h.cfg, hs]
  have hj : t.inputs = inp :: rest := by rw [h.inputs, hi]
  have h' : StaleEq { s with inputs := rest } { t with inputs := rest } :=
    h.map (f := fun u => { u with inputs := rest }) (fun _ => rfl) rfl le_rfl
  cases inp with
  | rx b =>
    rw [step_of_received hs hi, step_of_received ht hj]
    exact consumeByte_stale h' b
  | wire bs =>
    cases hd : decodeWire s.cfg bs with
    | ok i =>
      rw [step_of_decoded hs hi hd, step_of_decoded ht hj (by rw [← hd, ← h.cfg]; rfl)]
      exact exec_external_stale (decodeWire_external hd) h'
    | error r =>
      rw [step_of_noise hs hi hd, step_of_noise ht hj (by rw [h.cfg, hd])]
      exact h'.map (f := deliver bs) (fun _ => rfl) rfl le_rfl
  | call k =>
    cases hd : decodeCall k with
    | ok i =>
      rw [step_of_decoded hs hi hd, step_of_decoded ht hj hd]
      exact exec_external_stale (decodeCall_external _ k i hd) h'
    | error r =>
      rw [step_of_undecodable_call hs hi hd, step_of_undecodable_call ht hj hd]
      rfl

end Stale

/-- Settles O52: a received byte reads below the cursor only (`consumeByte_stale`), and no other operation of a
step reads the buffer. -/
theorem staleBytesAreNeverRead : Obligations.StaleBytesAreNeverRead := by
  intro s t h
  cases hl : s.cfg.legal with
  | false => exact step_stale_of_illegal h hl
  | true =>
    cases hi : s.inputs with
    | nil =>
      rw [step_of_unscheduled hl hi, step_of_unscheduled (by rw [h.cfg, hl]) (by rw [h.inputs, hi])]
      exact h
    | cons inp rest => exact step_stale_of_input h hl hi

end Sys2Proof.Machine

/-! ## Memory (20_memory.md): the buffer's canonical form (R40), and the step as the decoded operation (R46, R47) -/

namespace Sys2Proof.Machine

/-- The buffer is in canonical form. -/
def State.MemWf (s : State) : Prop := Memory.wf s.mem

theorem State.MemWf.of_mem_eq {s t : State} (h : s.MemWf) (ht : t.mem = s.mem) : t.MemWf := by
  unfold State.MemWf
  rwa [ht]

theorem State.MemWf.append {s : State} (h : s.MemWf) (b : Byte) : (s.append b).MemWf :=
  append_memWf h b

/-! ### What the shared operations do to the buffer -/

@[simp] theorem afterPoll_mem (s : State) (a : Addr) (c : Byte) : (afterPoll s a c).mem = s.mem := by
  rw [afterPoll_frame]

@[simp] theorem polled_mem (s : State) : s.polled.mem = s.mem := afterPoll_mem _ _ _

@[simp] theorem overflowGuard_mem (s : State) : (overflowGuard s).mem = s.mem := by
  unfold overflowGuard
  split_ifs
  · exact raiseError_mem _ s
  · rfl

@[simp] theorem classifyAck_mem (b : Byte) (s : State) : (classifyAck b s).mem = s.mem := by
  unfold classifyAck
  split_ifs
  · exact complete_mem _ s
  · exact complete_mem _ s
  · exact complete_mem _ { s with cur := s.cur - 1 }
  · exact raiseError_mem _ s

section MemWf

variable {s : State} (h : s.MemWf)

include h

/-! ### The rules of the parser: every write of the buffer is an append or the start of a frame -/

theorem pushByte_memWf (b : Byte) : Yields State.MemWf (pushByte b s) := by
  refine (pushByte_yields b s).mono ?_
  rintro _ ⟨-, rfl⟩
  exact h.append b

theorem answerPoll_memWf (p : List Byte) : Yields State.MemWf (answerPoll p s) :=
  (pushBytes_yields (fun b _ hu => pushByte_memWf hu b) p (s := sendBytes p s) h).andThen
    fun _ ht => yields_next.mpr ht

theorem ackAndComplete_memWf : Yields State.MemWf (ackAndComplete s) :=
  (pushByte_memWf (s := sendBytes [s.cfg.ack] s) h _).andThen
    fun t ht => yields_next.mpr (ht.of_mem_eq (complete_mem 0 t))

theorem execAckh_memWf (b : Byte) : Yields State.MemWf (execAckh b s) :=
  (pushByte_memWf h b).andThen fun t ht => yields_next.mpr (ht.of_mem_eq (classifyAck_mem b t))

theorem execDispatch_memWf : Yields State.MemWf (execDispatch s) := by
  have hpoll : s.polled.MemWf := h.of_mem_eq (polled_mem s)
  unfold execDispatch
  cases s.dispatchClass with
  | pollAns p => exact answerPoll_memWf hpoll p
  | pollAck => exact ackAndComplete_memWf hpoll
  | dataAck => exact ackAndComplete_memWf h
  | pollObs | dataObs => exact yields_next.mpr h
  | outOfContract => exact yields_refused _ _

theorem waitStartRules_memWf (b : Byte) : (waitStartRules b s).MemWf := by
  unfold waitStartRules
  split_ifs
  · exact h
  · exact startFrame_memWf h b
  · exact h

theorem waitDataRules_memWf (b : Byte) : Yields State.MemWf (waitDataRules b s) := by
  refine (pushByte_memWf h b).andThen fun t ht => ?_
  cases t.dataClass with
  | append => exact yields_next.mpr ht
  | badLen | badSum => exact yields_next.mpr (ht.of_mem_eq (raiseError_mem _ t))
  | valid => exact execDispatch_memWf ht

theorem waitStartSlaveRules_memWf (b : Byte) : Yields State.MemWf (waitStartSlaveRules b s) :=
  .ite (fun _ => (pushByte_memWf h b).andThen fun _ ht => yields_next.mpr ht)
    fun _ => execAckh_memWf h b

theorem waitDataSlaveRules_memWf (b : Byte) : Yields State.MemWf (waitDataSlaveRules b s) := by
  refine (pushByte_memWf h b).andThen fun t ht => yields_next.mpr ?_
  split_ifs
  · exact ht
  · exact ht

theorem parserRules_memWf (b : Byte) : Yields State.MemWf (parserRules b s) := by
  unfold parserRules
  cases s.st with
  | waitStart => exact yields_next.mpr (waitStartRules_memWf h b)
  | waitData => exact waitDataRules_memWf h b
  | waitStartSlave => exact waitStartSlaveRules_memWf h b
  | waitDataSlave => exact waitDataSlaveRules_memWf h b
  | waitAck => exact execAckh_memWf h b

/-- Every received byte keeps the buffer canonical. -/
theorem consumeByte_memWf (b : Byte) : Yields State.MemWf (consumeByte b s) :=
  parserRules_memWf (h.of_mem_eq (overflowGuard_mem s)) b

theorem execLoop_memWf : Yields State.MemWf (execLoop s) := by
  refine Yields.andThen (Q := State.MemWf) (.ite (fun _ => ?_) fun _ => yields_next.mpr h)
    fun _ ht => yields_next.mpr ht
  exact drain_yields (fun b _ hu => consumeByte_memWf hu b) (fun _ _ => id) _ h

theorem execTokenpoll_memWf (a : Addr) (c : Byte) : Yields State.MemWf (execTokenpoll a c s) := by
  unfold execTokenpoll
  cases pollAnswer s a c with
  | supplied p | nothing => exact yields_next.mpr (h.of_mem_eq (afterPoll_mem s a c))
  | outOfContract => exact yields_refused _ _

end MemWf

/-! ### Every operation -/

/-- A row that is not refused is the row of its byte, so what `CONSUME` yields, the row yields. -/
theorem Yields.row {P : State → Prop} {s : State} {b : Byte} {i : Instr} {o : Result}
    (h : Yields P (consumeByte b s)) (hx : exec i s = Machine.whenSelected s b i o) :
    Yields P (exec i s) := by
  by_cases hi : selectRow s b = i
  · rwa [← hi, exec_selectRow]
  · rw [hx, Machine.whenSelected, if_neg hi]
    exact yields_refused _ _

/-- An AckHandler row leaves the buffer as the append of its byte left it. -/
theorem State.MemWf.ackRow {s t : State} {b : Byte} {i : Instr} (h : s.MemWf)
    (hx : exec i s = whenAckRow s b i t) (ht : t.mem = (s.append b).mem) :
    Yields State.MemWf (exec i s) := by
  rw [hx]
  exact yields_whenAckRow ((h.append b).of_mem_eq ht) s b i

/-- Every operation, presented in any state, keeps the buffer canonical. -/
theorem exec_memWf {s : State} (h : s.MemWf) (i : Instr) : Yields State.MemWf (exec i s) := by
  cases i with
  -- RX rows with a line of their own in the decode table
  | ovf | wsDbl | wsStart | wsSlide | wdAppend | wdBadlen | wdBadsum | wdPollAns | wdPollAck
  | wdDataAck | wdPollObs | wdDataObs | wssStart | wssOther | wdsAppend | wdsDone =>
    exact (consumeByte_memWf h _).row rfl
  -- RX rows that only delegate, and the AckHandler rows
  | wdValid b =>
    exact .ite (fun _ => execDispatch_memWf (h.append b)) fun _ => yields_refused _ _
  | wa b => exact .ite (fun _ => execAckh_memWf h b) fun _ => yields_refused _ _
  | ackhAck | ackhNak | ackhMark => exact h.ackRow rfl (complete_mem _ _)
  | ackhOther => exact h.ackRow rfl (raiseError_mem _ _)
  -- operations made of received bytes, a poll or a flush
  | loop => exact execLoop_memWf h
  | consume b => exact (consumeByte_memWf h b).andThen fun _ ht => yields_next.mpr ht
  | dispatch => exact execDispatch_memWf h
  | ackh b => exact execAckh_memWf h b
  | complete => exact yields_next.mpr (h.of_mem_eq (complete_mem _ _))
  | tokenpoll => exact execTokenpoll_memWf h _ _
  -- operations that do not touch the buffer
  | mframe | sframe | mkmaster | mkslave =>
    exact .ite (fun _ => yields_next.mpr h) fun _ => yields_refused _ _
  | sendbytes => exact .ite (fun _ => yields_refused _ _) fun _ => yields_next.mpr h
  | enq | setconst => exact .ite (fun _ => yields_next.mpr h) fun _ => yields_next.mpr h
  | ackbyte | nakbyte | setack | setprov | addlsn | refresh | sweep | connect | disconnect
  | connected | inprog | onframe | ontoken | csum | csumok | mfvalid | sfvalid | sendack | sendnak
  | fanout | lsndispatch | dedup | broadcast => exact yields_next.mpr h

/-- Settles O50: the rules of the parser write the buffer by appends and frame starts only, a selected row does
what `CONSUME` does, and no other operation writes the buffer. -/
theorem everyOperationKeepsMemoryCanonical : Obligations.EveryOperationKeepsMemoryCanonical :=
  fun i _ t h => exec_memWf h i t

/-- Settles O2, by the equation of the step that decodes an operation. -/
theorem stepRunsDecodedOperation : Obligations.StepRunsDecodedOperation :=
  fun _ _ _ _ => step_of_decoded

end Sys2Proof.Machine

/-! ## Encoding (30_encoding.md): decode after encode, the decode table, and the bytes of the wire formats -/

namespace Sys2Proof.Machine

/-! ### The byte layout of the wire formats (R61, R62, R64) -/

/-- The part between two others. -/
theorem slice_middle (xs ys zs : List Byte) {i j : Nat} (hi : i = xs.length)
    (hj : j = xs.length + ys.length) : slice (xs ++ ys ++ zs) i j = ys := by
  rw [slice, hi, hj, ← List.length_append, List.take_left, List.drop_left]

/-- R64 assembles what R61 takes apart. -/
theorem addrOf_addrHi_addrLo (a : Addr) : addrOf (addrHi a) (addrLo a) = a := by
  unfold addrOf addrHi addrLo
  ext i hi
  by_cases h8 : i < 8
  · simp [h8, hi]
  · have : 8 + (i - 8) = i := by omega
    simp [h8, hi, this]
    omega

@[simp] theorem csumOk_csum (c : Config) (bs : List Byte) : csumOk c bs (csum c bs) = true := by
  simp [csumOk]

section MkMaster

variable (c : Config) (a : Addr) (cmd : Byte) (data : List Byte)

@[simp] theorem length_mkMaster : (mkMaster c a cmd data).length = 6 + data.length := by
  simp [mkMaster, masterBody]
  omega

@[simp] theorem byteAt_mkMaster_zero : byteAt (mkMaster c a cmd data) 0 = c.masterStart := rfl
@[simp] theorem byteAt_mkMaster_one : byteAt (mkMaster c a cmd data) 1 = addrHi a := rfl
@[simp] theorem byteAt_mkMaster_two : byteAt (mkMaster c a cmd data) 2 = addrLo a := rfl
@[simp] theorem byteAt_mkMaster_three : byteAt (mkMaster c a cmd data) 3 = cmd := rfl
@[simp] theorem byteAt_mkMaster_four :
    byteAt (mkMaster c a cmd data) 4 = BitVec.ofNat 8 data.length := rfl

@[simp] theorem byteAt_mkMaster_last :
    byteAt (mkMaster c a cmd data) (5 + data.length) = csum c (masterBody a cmd data) := by
  simp [byteAt, mkMaster, masterBody, Nat.add_comm 5]

@[simp] theorem slice_mkMaster_body :
    slice (mkMaster c a cmd data) 1 (5 + data.length) = masterBody a cmd data :=
  slice_middle [c.masterStart] (masterBody a cmd data) [csum c (masterBody a cmd data)] rfl
    (by simp [masterBody]; omega)

@[simp] theorem slice_mkMaster_data : slice (mkMaster c a cmd data) 5 (5 + data.length) = data :=
  slice_middle [c.masterStart, addrHi a, addrLo a, cmd, BitVec.ofNat 8 data.length] data
    [csum c (masterBody a cmd data)] rfl rfl

/-- R86: a frame made within the domain of R61 is valid. -/
theorem masterFrameValid_mkMaster (hdata : data.length ≤ maxData) (ha : addrHi a ≠ c.masterStart) :
    masterFrameValid c (mkMaster c a cmd data) = true := by
  have hn : (BitVec.ofNat 8 data.length).toNat = data.length :=
    Nat.mod_eq_of_lt (lt_of_le_of_lt hdata (by decide))
  simp [masterFrameValid, hn, ha, hdata]

end MkMaster

section MkSlave

variable (c : Config) (cmd : Byte) (data : List Byte)

@[simp] theorem length_mkSlave : (mkSlave c cmd data).length = 4 + data.length := by
  simp [mkSlave, slaveBody]
  omega

@[simp] theorem byteAt_mkSlave_zero : byteAt (mkSlave c cmd data) 0 = c.slaveStart := rfl
@[simp] theorem byteAt_mkSlave_one : byteAt (mkSlave c cmd data) 1 = cmd := rfl
@[simp] theorem byteAt_mkSlave_two :
    byteAt (mkSlave c cmd data) 2 = BitVec.ofNat 8 data.length := rfl

@[simp] theorem byteAt_mkSlave_last : byteAt (mkSlave c cmd data) (3 + data.length) =
    csum c (slaveCover c c.slaveStart (slaveBody cmd data)) := by
  simp [byteAt, mkSlave, slaveBody, Nat.add_comm 3]

@[simp] theorem slice_mkSlave_body :
    slice (mkSlave c cmd data) 1 (3 + data.length) = slaveBody cmd data :=
  slice_middle [c.slaveStart] (slaveBody cmd data) [_] rfl (by simp [slaveBody]; omega)

@[simp] theorem slice_mkSlave_data : slice (mkSlave c cmd data) 3 (3 + data.length) = data :=
  slice_middle [c.slaveStart, cmd, BitVec.ofNat 8 data.length] data [_] rfl rfl

/-- R86: a slave frame made within the domain of R62 is valid. -/
theorem slaveFrameValid_mkSlave (hdata : data.length ≤ 255) :
    slaveFrameValid c (mkSlave c cmd data) = true := by
  have hn : (BitVec.ofNat 8 data.length).toNat = data.length := Nat.mod_eq_of_lt (by omega)
  simp [slaveFrameValid, hn, Nat.add_comm 4]

/-- The start byte tells the two frame formats apart (R60). -/
theorem masterFrameValid_mkSlave (h : c.slaveStart ≠ c.masterStart) :
    masterFrameValid c (mkSlave c cmd data) = false := by
  simp [masterFrameValid, h]

end MkSlave

/-! ### Decoding the wire formats and the calls (R61 to R63, R72) -/

theorem ne_singleton_of_length {bs : List Byte} (h : 2 ≤ bs.length) (b : Byte) : bs ≠ [b] := by
  rintro rfl
  simp at h

theorem decodeWire_ackbyte (c : Config) : decodeWire c [c.ack] = .ok .ackbyte := if_pos rfl

theorem decodeWire_nakbyte {c : Config} (h : c.ack ≠ c.nak) : decodeWire c [c.nak] = .ok .nakbyte := by
  simp [decodeWire, h.symm]

theorem decodeWire_mkMaster {c : Config} {a : Addr} {data : List Byte} (cmd : Byte)
    (hdata : data.length ≤ maxData) (ha : addrHi a ≠ c.masterStart) :
    decodeWire c (mkMaster c a cmd data) = .ok (.mframe a cmd data) := by
  have hlen : 2 ≤ (mkMaster c a cmd data).length := by
    rw [length_mkMaster]
    omega
  have hlast : 6 + data.length - 1 = 5 + data.length := by omega
  rw [decodeWire, if_neg (ne_singleton_of_length hlen _), if_neg (ne_singleton_of_length hlen _),
    if_pos (masterFrameValid_mkMaster c a cmd data hdata ha)]
  simp [addrOf_addrHi_addrLo, hlast]

theorem decodeWire_mkSlave {c : Config} {data : List Byte} (cmd : Byte)
    (hdata : data.length ≤ 255) (hc : c.slaveStart ≠ c.masterStart) :
    decodeWire c (mkSlave c cmd data) = .ok (.sframe cmd data) := by
  have hlen : 2 ≤ (mkSlave c cmd data).length := by
    rw [length_mkSlave]
    omega
  have hlast : 4 + data.length - 1 = 3 + data.length := by omega
  rw [decodeWire, if_neg (ne_singleton_of_length hlen _), if_neg (ne_singleton_of_length hlen _),
    masterFrameValid_mkSlave c cmd data hc, if_neg Bool.false_ne_true,
    if_pos (slaveFrameValid_mkSlave c cmd data hdata)]
  simp [hlast]

@[simp] theorem asAddr_toNat (a : Addr) : asAddr a.toNat = .ok a := by
  simp [asAddr, a.isLt]

@[simp] theorem asByte_toNat (b : Byte) : asByte b.toNat = .ok b := by
  simp [asByte, b.isLt]

@[simp] theorem asBit_bitNat (b : Bool) : asBit (bitNat b) = .ok b := by
  cases b <;> rfl

/-- Every host command comes back from its call (assumption 15). -/
theorem decodeCall_encodeCall {i : Instr} {k : Call} (h : encodeCall i = some k) :
    decodeCall k = .ok i := by
  cases i with
  | setack | enq | setprov | setconst | addlsn | consume =>
    cases h
    simp [decodeCall, bind, Except.bind, pure, Except.pure]
  | refresh | sweep | connect | disconnect | connected | loop | inprog | onframe | ontoken =>
    cases h
    rfl
  | _ => cases h

/-- Every well-formed wire format comes back from its bytes. -/
theorem decodeWire_encodeWire {c : Config} {i : Instr} {bs : List Byte} (hc : c.legal = true)
    (hi : i.wf c = true) (h : encodeWire c i = some bs) : decodeWire c bs = .ok i := by
  obtain ⟨hMS, -, -, -, -, hAN, -⟩ := (legal_iff c).mp hc
  cases i with
  | mframe a cmd data =>
    obtain ⟨hdata, ha⟩ : data.length ≤ maxData ∧ addrHi a ≠ c.masterStart := by
      simpa [Instr.wf, addrHi] using hi
    cases h
    exact decodeWire_mkMaster cmd hdata ha
  | sframe cmd data =>
    cases h
    exact decodeWire_mkSlave cmd (of_decide_eq_true hi) hMS.symm
  | ackbyte =>
    cases h
    exact decodeWire_ackbyte c
  | nakbyte =>
    cases h
    exact decodeWire_nakbyte hAN
  | _ => cases h

/-- Exactly the operations of R66's rows have a byte in hand. -/
theorem rowByte_eq_none_iff (c : Config) (i : Instr) : rowByte c i = none ↔ rowState i = none := by
  cases i <;> simp [rowByte, rowState]

/-- Settles O5: an operation outside R66's rows is encoded as the bytes of a wire format or as a call, and each
comes back. -/
theorem decodeUndoesEncode : Obligations.DecodeUndoesEncode := by
  intro s i inp hc hi hrow henc
  rw [encode, (rowByte_eq_none_iff s.cfg i).mpr hrow] at henc
  split at henc
  · contradiction
  · cases henc
    exact decodeWire_encodeWire hc hi ‹_›
  · cases henc
    exact decodeCall_encodeCall ‹_›
  · cases henc

/-! ### The decode table (R66) -/

/-- Row `i` fits byte `b` in `s`: it carries the state and the byte, its operands are in the domain of its rule,
and it merely delegates only to the AckHandler. -/
structure RowFits (s : State) (b : Byte) (i : Instr) : Prop where
  state : rowState i = some s.st
  byte : rowByte s.cfg i = some b
  wf : i.wf s.cfg = true
  leaf : s.awaitsAck b = false → isLeafRow i = true

theorem RowFits.tableWord {s : State} {b : Byte} {i : Instr} (h : RowFits s b i) :
    tableWord s.cfg i = some (rxWord s.st b) := by
  simp [Sys2Proof.tableWord, h.state, h.byte]

theorem awaitsAck_iff {s : State} {b : Byte} :
    s.awaitsAck b = true ↔
      s.overflowing = false ∧ (s.st = .waitAck ∨ s.st = .waitStartSlave ∧ b ≠ s.cfg.slaveStart) := by
  simp [State.awaitsAck]

theorem isLeafRow_ackRow (c : Config) (b : Byte) : isLeafRow (ackRow c b) = true := by
  unfold ackRow
  split_ifs <;> rfl

theorem rowByte_ackRow (c : Config) (b : Byte) : rowByte c (ackRow c b) = some b := by
  unfold ackRow
  split_ifs with hack hnak hmark
  · exact congrArg some hack.symm
  · exact congrArg some hnak.symm
  · exact congrArg some hmark.symm
  · rfl

section Fits

variable {s : State} (b : Byte)

theorem rowFits_ovf (h : s.overflowing = true) : RowFits s b (.ovf s.st b) := by
  obtain ⟨hst, -⟩ := Bool.and_eq_true_iff.mp h
  exact ⟨rfl, rfl, hst, fun _ => rfl⟩

theorem rowFits_dispatchRow (hst : s.st = .waitData) (d : DispatchClass) :
    RowFits s b (dispatchRow b d) := by
  cases d <;> exact ⟨congrArg some hst.symm, rfl, rfl, fun _ => rfl⟩

theorem rowFits_ackRow (hst : s.st = .waitAck) : RowFits s b (ackRow s.cfg b) := by
  refine ⟨?_, rowByte_ackRow _ b, ?_, fun _ => isLeafRow_ackRow _ b⟩
  · rw [hst, ackRow]
    split_ifs <;> rfl
  · unfold ackRow
    split_ifs with hack hnak hmark
    · rfl
    · rfl
    · rfl
    · simp [Instr.wf, hack, hnak, hmark]

/-- The rows of the decode table, state by state. -/
theorem rowFits_selectRow : RowFits s b (selectRow s b) := by
  unfold selectRow
  by_cases ho : s.overflowing = true
  · rw [if_pos ho]
    exact rowFits_ovf b ho
  rw [if_neg ho]
  cases hst : s.st with
  | waitStart =>
    dsimp only
    split_ifs with hp hb
    · exact ⟨congrArg some hst.symm, congrArg some hb.symm, rfl, fun _ => rfl⟩
    · exact ⟨congrArg some hst.symm, rfl, bne_iff_ne.mpr hb, fun _ => rfl⟩
    · exact ⟨congrArg some hst.symm, rfl, rfl, fun _ => rfl⟩
  | waitData =>
    cases (s.append b).dataClass with
    | append | badLen | badSum => exact ⟨congrArg some hst.symm, rfl, rfl, fun _ => rfl⟩
    | valid => exact rowFits_dispatchRow b hst _
  | waitStartSlave =>
    dsimp only
    split_ifs with hb
    · exact ⟨congrArg some hst.symm, congrArg some hb.symm, rfl, fun _ => rfl⟩
    · have hack : s.awaitsAck b = true := awaitsAck_iff.mpr ⟨by simpa using ho, .inr ⟨hst, hb⟩⟩
      exact ⟨congrArg some hst.symm, rfl, bne_iff_ne.mpr hb, fun h => by simp [hack] at h⟩
  | waitDataSlave =>
    dsimp only
    split_ifs
    · exact ⟨congrArg some hst.symm, rfl, rfl, fun _ => rfl⟩
    · exact ⟨congrArg some hst.symm, rfl, rfl, fun _ => rfl⟩
  | waitAck => exact rowFits_ackRow b hst

end Fits

/-- Settles O6, by the cases of the decode table. -/
theorem selectedRowCarriesStateAndByte : Obligations.SelectedRowCarriesStateAndByte := fun s b _ =>
  have h := rowFits_selectRow (s := s) b
  ⟨h.tableWord, h.wf⟩

/-- Settles O8, by the equation of a selected row. -/
theorem consumeRunsTheSelectedRow : Obligations.ConsumeRunsTheSelectedRow := by
  intro s b
  rw [exec_selectRow]
  rfl

/-! ### The one leaf row of a byte (R66) -/

/-- The row of R66 that applies to `b` in `s`, read down to the AckHandler rows. -/
def leafRow (s : State) (b : Byte) : Instr :=
  if s.awaitsAck b then ackRow s.cfg b else selectRow s b

/-- A byte that reaches the AckHandler is in its rows, or in WSS.OTHER, which delegates to them (R111). -/
theorem selectRow_of_awaitsAck {s : State} {b : Byte} (h : s.awaitsAck b = true) :
    selectRow s b = ackRow s.cfg b ∨ selectRow s b = .wssOther b := by
  obtain ⟨ho, hst | ⟨hst, hb⟩⟩ := awaitsAck_iff.mp h
  · exact .inl (by simp [selectRow, ho, hst])
  · exact .inr (by simp [selectRow, ho, hst, hb])

/-- Every leaf row is guarded: by R66, or by the byte's way to the AckHandler. -/
theorem exec_of_isLeafRow {s : State} {b : Byte} {i : Instr} (hl : isLeafRow i = true)
    (hb : rowByte s.cfg i = some b) :
    (∃ o, exec i s = whenSelected s b i o) ∨ ∃ t, exec i s = whenAckRow s b i t := by
  cases i with
  | ovf | wsDbl | wsStart | wsSlide | wdAppend | wdBadlen | wdBadsum | wdPollAns | wdPollAck
  | wdDataAck | wdPollObs | wdDataObs | wssStart | wdsAppend | wdsDone =>
    cases hb
    exact .inl ⟨_, rfl⟩
  | ackhAck | ackhNak | ackhMark | ackhOther =>
    cases hb
    exact .inr ⟨_, rfl⟩
  | _ => exact absurd hl Bool.false_ne_true

theorem exec_ackRow (s : State) (b : Byte) :
    ∃ t, exec (ackRow s.cfg b) s = whenAckRow s b (ackRow s.cfg b) t := by
  unfold ackRow
  split_ifs with hack hnak hmark
  · exact ⟨finishAck (s.append s.cfg.ack), by rw [hack]; rfl⟩
  · exact ⟨finishNak (s.append s.cfg.nak), by rw [hnak]; rfl⟩
  · exact ⟨finishMark (s.append s.cfg.masterStart), by rw [hmark]; rfl⟩
  · exact ⟨finishOther (s.append b), rfl⟩

section Leaf

variable (s : State) (b : Byte)

theorem isLeafRow_leafRow : isLeafRow (leafRow s b) = true := by
  unfold leafRow
  split_ifs with h
  · exact isLeafRow_ackRow _ b
  · exact (rowFits_selectRow b).leaf (by simpa using h)

theorem rowByte_leafRow : rowByte s.cfg (leafRow s b) = some b := by
  unfold leafRow
  split_ifs
  · exact rowByte_ackRow _ b
  · exact (rowFits_selectRow b).byte

/-- The leaf row has a meaning, or stops for another reason. -/
theorem exec_leafRow_ne_notSelected : exec (leafRow s b) s ≠ .refused .notSelected := by
  unfold leafRow
  split_ifs with h
  · obtain ⟨t, ht⟩ := exec_ackRow s b
    rw [ht, whenAckRow, if_pos ⟨h, rfl⟩]
    nofun
  · rw [exec_selectRow]
    exact fun hr => by simpa using consumeByte_refusesIn b s _ hr

/-- Any other leaf row that carries the byte is refused as not selected. -/
theorem eq_leafRow {i : Instr} (hl : isLeafRow i = true) (hb : rowByte s.cfg i = some b)
    (hx : exec i s ≠ .refused .notSelected) : i = leafRow s b := by
  unfold leafRow
  obtain ⟨o, ho⟩ | ⟨t, ht⟩ := exec_of_isLeafRow hl hb
  · have hi : selectRow s b = i := by
      by_contra hne
      exact hx (ho.trans (if_neg hne))
    split_ifs with h
    · obtain hack | hother := selectRow_of_awaitsAck h
      · exact hi.symm.trans hack
      · rw [← hi, hother] at hl
        exact absurd hl Bool.false_ne_true
    · exact hi.symm
  · obtain ⟨h, hi⟩ : s.awaitsAck b = true ∧ ackRow s.cfg b = i := by
      by_contra hne
      exact hx (ht.trans (if_neg hne))
    rw [if_pos h, hi]

end Leaf

/-- Settles O7: the row is `leafRow`; that no other applies is `eq_leafRow`. -/
theorem exactlyOneRowApplies : Obligations.ExactlyOneRowApplies := fun s b _ =>
  ⟨leafRow s b, ⟨isLeafRow_leafRow s b, rowByte_leafRow s b, exec_leafRow_ne_notSelected s b⟩,
    fun _ ⟨hl, hb, hx⟩ => eq_leafRow s b hl hb hx⟩

/-! ### The bytes a wire format puts on the bus (R61 to R63, R41) -/

theorem addrHi_eq_ofNat (a : Addr) : addrHi a = BitVec.ofNat 8 (a.toNat / 256) := by
  apply BitVec.eq_of_toNat_eq
  simp [addrHi, Nat.shiftRight_eq_div_pow]

theorem addrLo_eq_ofNat (a : Addr) : addrLo a = BitVec.ofNat 8 a.toNat := by
  apply BitVec.eq_of_toNat_eq
  simp [addrLo]

/-- The bytes a slave frame's checksum covers, written out (R62, D33). -/
theorem slaveCover_slaveBody (c : Config) (start cmd : Byte) (data : List Byte) :
    slaveCover c start (slaveBody cmd data) = (if c.slaveCsumIncludesStart then [start] else []) ++
      [cmd, BitVec.ofNat 8 data.length] ++ data := by
  unfold slaveCover
  split_ifs <;> rfl

theorem exec_mframe (s : State) (a : Addr) (cmd : Byte) {data : List Byte} (h : data.length ≤ 255) :
    exec (.mframe a cmd data) s = .next (deliver (mkMaster s.cfg a cmd data) s) := if_pos h

theorem exec_sframe (s : State) (cmd : Byte) {data : List Byte} (h : data.length ≤ 255) :
    exec (.sframe cmd data) s = .next (deliver (mkSlave s.cfg cmd data) s) := if_pos h

/-- Settles O46: the address's two bytes as numbers and the slave checksum's cover as an append; the rest is the
layout of `mkMaster` and `mkSlave`. -/
theorem wireFormatsArriveByteByByte : Obligations.WireFormatsArriveByteByByte := by
  intro s a cmd data hlen
  refine ⟨⟨_, ?_, rfl⟩, ⟨_, ?_, rfl⟩, rfl, rfl⟩
  · rw [exec_mframe s a cmd hlen, ← addrHi_eq_ofNat, ← addrLo_eq_ofNat]
    rfl
  · rw [exec_sframe s cmd hlen, ← slaveCover_slaveBody]
    rfl

/-! ### The words of the opcode table (R66, R72) -/

/-- Settles O1: the decoder evaluated on each of the fifteen words, in the session of assumption 16. -/
theorem opcodeTableWordsDecode : Obligations.OpcodeTableWordsDecode :=
  ⟨rfl, rfl, rfl, rfl, rfl, rfl, rfl, rfl, rfl, rfl, rfl, rfl, rfl, rfl, rfl⟩

end Sys2Proof.Machine

/-! ## Delivered transcripts (R68): each begins with a frame start and fits the buffer -/

namespace Sys2Proof.Machine

/-- The session holds the start of a master frame, its length byte at least, within the buffer. -/
def State.BeginsFrame (s : State) : Prop :=
  5 ≤ s.cur ∧ s.cur ≤ s.cfg.bufCap ∧ s.readBuf 0 = s.cfg.masterStart ∧ s.readBuf 1 ≠ s.cfg.masterStart

/-- What R68 says of every transcript. -/
def BeginsTranscript (c : Config) (tr : List Byte) : Prop :=
  5 ≤ tr.length ∧ tr.length ≤ c.bufCap ∧ byteAt tr 0 = c.masterStart ∧ byteAt tr 1 ≠ c.masterStart

/-- The events of `s` after `old` deliver only transcripts R68 allows. -/
def State.DeliversFrames (c : Config) (old : List Event) (s : State) : Prop :=
  ∃ es, s.trace = old ++ es ∧ ∀ tr, .frameReceived tr ∈ es → BeginsTranscript c tr

section Delivery

variable {c : Config} {old : List Event} {s : State}

theorem State.BeginsFrame.transcript (h : s.BeginsFrame) : BeginsTranscript s.cfg s.transcript := by
  obtain ⟨h5, hcap, h0, h1⟩ := h
  have hb : ∀ i, i < 5 → byteAt s.transcript i = s.readBuf i := fun i hi => by
    rw [State.transcript, byteAt_bufSlice (by omega), Nat.zero_add]
  refine ⟨?_, ?_, ?_, ?_⟩
  · rwa [State.transcript, bufSlice_length]
  · rwa [State.transcript, bufSlice_length]
  · rw [hb 0 (by decide), h0]
  · rwa [hb 1 (by decide)]

/-- An append keeps the start of the frame; its byte may be the length byte. -/
theorem State.beginsFrame_append (h4 : 4 ≤ s.cur) (hroom : s.cur < s.cfg.bufCap)
    (h0 : s.readBuf 0 = s.cfg.masterStart) (h1 : s.readBuf 1 ≠ s.cfg.masterStart) (b : Byte) :
    (s.append b).BeginsFrame := by
  refine ⟨Nat.succ_le_succ h4, hroom, ?_, ?_⟩
  · rwa [readBuf_append_of_lt (by omega)]
  · rwa [readBuf_append_of_lt (by omega)]

theorem State.BeginsFrame.append (h : s.BeginsFrame) (hroom : s.cur < s.cfg.bufCap) (b : Byte) :
    (s.append b).BeginsFrame := by
  obtain ⟨h5, -, h0, h1⟩ := h
  exact State.beginsFrame_append (by omega) hroom h0 h1 b

/-- Clause (iii) of R26: a whole valid frame begins as one. -/
theorem State.HoldsMasterFrame.beginsFrame (h : s.HoldsMasterFrame) (hcap : s.cur ≤ s.cfg.bufCap) :
    s.BeginsFrame := by
  obtain ⟨hlen, hvalid⟩ := h
  simp only [masterFrameValid, Bool.and_eq_true, beq_iff_eq, bne_iff_ne] at hvalid
  obtain ⟨⟨⟨⟨⟨-, h0⟩, h1⟩, -⟩, -⟩, -⟩ := hvalid
  rw [byteAt_bufSlice (by omega)] at h0 h1
  exact ⟨by omega, hcap, h0, h1⟩

theorem State.DeliversFrames.refl (c : Config) (s : State) : s.DeliversFrames c s.trace :=
  ⟨[], by simp, nofun⟩

/-- Events that deliver nothing. -/
theorem State.DeliversFrames.emit (h : s.DeliversFrames c old) {es : List Event}
    (hes : ∀ tr, .frameReceived tr ∉ es) : (s.emit es).DeliversFrames c old := by
  obtain ⟨pre, ht, hpre⟩ := h
  refine ⟨pre ++ es, by rw [emit_trace, ht, List.append_assoc], fun tr htr => ?_⟩
  exact hpre tr ((List.mem_append.mp htr).resolve_right (hes tr))

theorem State.DeliversFrames.sendBytes (h : s.DeliversFrames c old) (p : List Byte) :
    (sendBytes p s).DeliversFrames c old :=
  h.emit (by simp [sendEvents])

/-- A delivery delivers its own transcript only (R118, R152). -/
theorem IsDelivery.eq_of_mem {tr x : List Byte} {es : List Event} (h : IsDelivery s tr es)
    (hx : .frameReceived x ∈ es) : x = tr := by
  have hl : .frameReceived x ∉ listenerEvents s tr := by
    unfold listenerEvents
    split_ifs
    · dsimp only
      split <;> simp
    · nofun
  unfold IsDelivery at h
  split_ifs at h
  · obtain ⟨order, -, rfl⟩ := h
    simpa [hl] using hx
  · subst h
    simpa using hx

/-- The flush of a session that holds the start of a frame (R118). -/
theorem State.DeliversFrames.complete (h : s.DeliversFrames s.cfg old) (hs : s.BeginsFrame)
    (seed : Byte) : (complete seed s).DeliversFrames s.cfg old := by
  obtain ⟨pre, ht, hpre⟩ := h
  obtain ⟨-, es, hes, htr⟩ := complete_flushed seed s
  refine ⟨pre ++ es, by rw [htr, ht]; simp, fun tr hmem => ?_⟩
  obtain hmem | hmem := List.mem_append.mp hmem
  · exact hpre tr hmem
  · rw [hes.eq_of_mem hmem]
    exact hs.transcript

theorem State.DeliversFrames.raiseError (h : s.DeliversFrames s.cfg old) (hs : s.BeginsFrame)
    (e : ErrorClass) : (raiseError e s).DeliversFrames s.cfg old :=
  State.DeliversFrames.complete (s := s.emit [.log e]) (h.emit (by simp)) hs 0

end Delivery

theorem five_le_cur_of_dataClass {s : State} (h : s.dataClass ≠ .append) : 5 ≤ s.cur := by
  by_contra hlt
  exact h (if_pos (not_le.mp hlt))

/-- Under the invariant every full session began as a frame. -/
theorem beginsFrame_of_overflowing {s : State} (h : s.Inv) (ho : s.overflowing = true) :
    s.BeginsFrame := by
  obtain ⟨hstore, hcap, hp⟩ := inv_iff.mp h
  obtain ⟨hne, hfull⟩ : s.st ≠ .waitStart ∧ s.cfg.bufCap ≤ s.cur := by
    simpa [State.overflowing] using ho
  have h257 := hstore.sizes.1
  cases hst : s.st with
  | waitStart => exact absurd hst hne
  | waitData =>
    obtain ⟨-, h0, h1, -⟩ := (sessionOk_waitData hst).mp hp
    exact ⟨by omega, hcap, h0, h1⟩
  | waitStartSlave => exact (hp.holdsMasterFrame (.inl hst)).beginsFrame hcap
  | waitDataSlave => exact (hp.holdsMasterFrame (.inr (.inl hst))).beginsFrame hcap
  | waitAck => exact (hp.holdsMasterFrame (.inr (.inr hst))).beginsFrame hcap

section Rules

variable {old : List Event} {s : State} (h : s.DeliversFrames s.cfg old)

include h

/-! ### The rules of the parser -/

theorem ackAndComplete_delivers (hs : s.BeginsFrame) :
    Yields (·.DeliversFrames s.cfg old) (ackAndComplete s) := by
  refine (pushByte_yields _ _).andThen ?_
  rintro _ ⟨hroom, rfl⟩
  have hs' : (sendBytes [s.cfg.ack] s).BeginsFrame := hs
  exact yields_next.mpr
    (State.DeliversFrames.complete (s := (sendBytes _ s).append _) (h.sendBytes _) (hs'.append hroom _) 0)

theorem answerPoll_delivers (p : List Byte) :
    Yields (·.DeliversFrames s.cfg old) (answerPoll p s) := by
  refine (pushBytes_yields (fun b u hu => ?_) p (h.sendBytes p)).andThen fun _ ht => yields_next.mpr ht
  refine (pushByte_yields b u).mono ?_
  rintro _ ⟨-, rfl⟩
  exact hu

theorem execDispatch_delivers (hs : s.BeginsFrame) :
    Yields (·.DeliversFrames s.cfg old) (execDispatch s) := by
  have hp : s.polled.DeliversFrames s.polled.cfg old ∧ s.polled.BeginsFrame := by
    rw [polled_frame]
    exact ⟨h, hs⟩
  have hc := polled_cfg s
  unfold execDispatch
  cases s.dispatchClass with
  | pollAns p =>
    rw [← hc]
    exact answerPoll_delivers hp.1 p
  | pollAck =>
    rw [← hc]
    exact ackAndComplete_delivers hp.1 hp.2
  | dataAck => exact ackAndComplete_delivers h hs
  | pollObs | dataObs => exact yields_next.mpr h
  | outOfContract => exact yields_refused _ _

theorem waitDataRules_delivers (hf : s.InMasterFrame) (b : Byte) :
    Yields (·.DeliversFrames s.cfg old) (waitDataRules b s) := by
  obtain ⟨-, h0, h1, -⟩ := hf
  refine (pushByte_yields b s).andThen ?_
  rintro _ ⟨hroom, rfl⟩
  have ht : (s.append b).DeliversFrames (s.append b).cfg old := h
  have hs : (s.append b).dataClass ≠ .append → (s.append b).BeginsFrame := fun hd =>
    State.beginsFrame_append (Nat.le_of_succ_le_succ (five_le_cur_of_dataClass hd)) hroom h0 h1 b
  cases hd : (s.append b).dataClass with
  | append => exact yields_next.mpr h
  | badLen | badSum => exact yields_next.mpr (ht.raiseError (hs (by simp [hd])) _)
  | valid => exact execDispatch_delivers ht (hs (by simp [hd]))

theorem classifyAck_delivers (hs : s.BeginsFrame) (hmark : State.BeginsFrame { s with cur := s.cur - 1 })
    (b : Byte) : (classifyAck b s).DeliversFrames s.cfg old := by
  unfold classifyAck
  split_ifs
  · exact h.complete hs 0
  · exact h.complete hs 0
  · exact State.DeliversFrames.complete (s := { s with cur := s.cur - 1 }) h hmark _
  · exact h.raiseError hs _

theorem execAckh_delivers (hs : s.BeginsFrame) (b : Byte) :
    Yields (·.DeliversFrames s.cfg old) (execAckh b s) := by
  refine (pushByte_yields b s).andThen ?_
  rintro _ ⟨hroom, rfl⟩
  have ht := hs.append hroom b
  have hmark : State.BeginsFrame { s.append b with cur := s.cur } := by
    obtain ⟨h5, hcap, -, -⟩ := hs
    obtain ⟨-, -, h0, h1⟩ := ht
    exact ⟨h5, hcap, h0, h1⟩
  exact yields_next.mpr (classifyAck_delivers (s := s.append b) h ht hmark b)

theorem waitStartSlaveRules_delivers (hs : s.BeginsFrame) (b : Byte) :
    Yields (·.DeliversFrames s.cfg old) (waitStartSlaveRules b s) := by
  refine .ite (fun _ => (pushByte_yields b s).andThen ?_) fun _ => execAckh_delivers h hs b
  rintro _ ⟨-, rfl⟩
  exact yields_next.mpr h

theorem waitDataSlaveRules_delivers (b : Byte) :
    Yields (·.DeliversFrames s.cfg old) (waitDataSlaveRules b s) := by
  refine (pushByte_yields b s).andThen ?_
  rintro _ ⟨-, rfl⟩
  refine yields_next.mpr ?_
  split_ifs
  · exact h
  · exact h

theorem waitStartRules_delivers (b : Byte) :
    (waitStartRules b s).DeliversFrames s.cfg old := by
  unfold waitStartRules
  split_ifs
  · exact h
  · exact h
  · exact h

theorem parserRules_delivers (hi : s.Inv) (b : Byte) :
    Yields (·.DeliversFrames s.cfg old) (parserRules b s) := by
  obtain ⟨-, hcap, hp⟩ := inv_iff.mp hi
  have framed := fun hst => (hp.holdsMasterFrame hst).beginsFrame hcap
  unfold parserRules
  cases hst : s.st with
  | waitStart => exact yields_next.mpr (waitStartRules_delivers h b)
  | waitData => exact waitDataRules_delivers h ((sessionOk_waitData hst).mp hp) b
  | waitStartSlave => exact waitStartSlaveRules_delivers h (framed (.inl hst)) b
  | waitDataSlave => exact waitDataSlaveRules_delivers h b
  | waitAck => exact execAckh_delivers h (framed (.inr (.inr hst))) b

/-- The overflow flushes a session that holds `BUF_CAP` bytes (R121). -/
theorem overflowGuard_delivers (hi : s.Inv) : (overflowGuard s).DeliversFrames s.cfg old := by
  unfold overflowGuard
  split_ifs with ho
  · exact h.raiseError (beginsFrame_of_overflowing hi ho) _
  · exact h

theorem consumeByte_delivers (hi : s.Inv) (b : Byte) :
    Yields (·.DeliversFrames s.cfg old) (consumeByte b s) := by
  have hc := (overflowGuard_frame s).cfg
  have hg := overflowGuard_delivers h hi
  rw [← hc] at hg ⊢
  exact parserRules_delivers hg (overflowGuard_inv hi) b

end Rules

/-- Settles O57: of what a received byte emits, only a flush delivers, and every flushed session holds the start
of a frame (`consumeByte_delivers`). -/
theorem transcriptsBeginWithAFrameStart : Obligations.TranscriptsBeginWithAFrameStart := by
  intro s t b hi hx
  obtain ⟨u, hu, ht⟩ := andThen_eq_next.mp hx
  cases ht
  exact consumeByte_delivers (.refl s.cfg s) hi b u hu

end Sys2Proof.Machine

/-! ## The checksum codec (40_checksum_codec.md): the checksum, and which byte lists are valid frames -/

namespace Sys2Proof.Machine

/-! ### The checksum (R80, R81) -/

/-- The fold from the right, as exclusive-or is commutative and associative. -/
theorem xorFold_eq_foldr (bs : List Byte) : xorFold bs = bs.foldr (fun x a => x ^^^ a) 0 :=
  List.foldl_eq_foldr (f := fun x a => x ^^^ a)

theorem xorFold_perm {xs ys : List Byte} (h : xs.Perm ys) : xorFold xs = xorFold ys :=
  h.foldl_eq 0

theorem csum_perm (c : Config) {xs ys : List Byte} (h : xs.Perm ys) : csum c xs = csum c ys := by
  rw [csum, csum, xorFold_perm h]

theorem csum_of_xorFold_eq_masterStart {c : Config} {bs : List Byte} (h : xorFold bs = c.masterStart) :
    csum c bs = c.subst := if_pos h

theorem csum_of_xorFold_ne_masterStart {c : Config} {bs : List Byte} (h : xorFold bs ≠ c.masterStart) :
    csum c bs = xorFold bs := if_neg h

/-- The two clauses of R81 accept one byte only: where the fold is the marker, the checksum is the
substitute. -/
theorem csumOk_iff {c : Config} {bs : List Byte} {k : Byte} : csumOk c bs k = true ↔ k = csum c bs := by
  by_cases h : xorFold bs = c.masterStart
  · simp [csumOk, csum_of_xorFold_eq_masterStart h]
  · simp [csumOk, h]

theorem csumOk_eq_decide (c : Config) (bs : List Byte) (k : Byte) :
    csumOk c bs k = decide (k = csum c bs) := by
  rw [Bool.eq_iff_iff, csumOk_iff, decide_eq_true_iff]

theorem csum_ne_masterStart {c : Config} (h : c.subst ≠ c.masterStart) (bs : List Byte) :
    csum c bs ≠ c.masterStart := by
  by_cases hx : xorFold bs = c.masterStart
  · rwa [csum_of_xorFold_eq_masterStart hx]
  · rwa [csum_of_xorFold_ne_masterStart hx]

/-- Settles O27: the fold runs from either end, and `CSUMOK` is equality with `CSUM`. -/
theorem checksumFoldsAndSubstitutes : Obligations.ChecksumFoldsAndSubstitutes := fun s bs k =>
  ⟨csum s.cfg bs, rfl, by rw [← xorFold_eq_foldr, csum], by rw [← csumOk_eq_decide]; rfl⟩

/-- Settles O28: the checksum is never the marker as `SUBST ≠ M`; the fold does not see the order; a fold to the
substitute is left as it is. -/
theorem checksumNeverEqualsTheMarker : Obligations.ChecksumNeverEqualsTheMarker := by
  intro c hc
  obtain ⟨-, -, -, -, -, -, -, hsubst, -⟩ := (legal_iff c).mp hc
  refine ⟨fun bs => ?_, fun _ _ => csum_perm c, fun xs ys hx hy => ?_⟩
  · have hne := csum_ne_masterStart hsubst bs
    exact ⟨hne, by rw [csumOk_eq_decide, decide_eq_false hne.symm]⟩
  · rw [csum_of_xorFold_eq_masterStart hx, csum_of_xorFold_ne_masterStart (hy ▸ hsubst), hy]

/-! ### Valid frames are the built ones (R82, R83, R86) -/

/-- R61 takes apart what R64 assembles. -/
theorem addrHi_addrOf (hi lo : Byte) : addrHi (addrOf hi lo) = hi := by
  unfold addrHi addrOf
  ext i h8
  have h16 : i < 16 ∧ 8 + i < 16 := by omega
  simp [h8, h16]

theorem addrLo_addrOf (hi lo : Byte) : addrLo (addrOf hi lo) = lo := by
  unfold addrLo addrOf
  ext i h8
  have h16 : i < 16 := by omega
  simp [h8, h16]

section Framed

variable (m : Byte) (body : List Byte) (k : Byte)

theorem length_framed : (m :: body ++ [k]).length = body.length + 2 := by
  simp

theorem byteAt_framed_succ {i : Nat} (hi : i < body.length) :
    byteAt (m :: body ++ [k]) (i + 1) = byteAt body i := by
  simp [byteAt, List.getElem?_append_left hi]

theorem byteAt_framed_last : byteAt (m :: body ++ [k]) (body.length + 1) = k := by
  simp [byteAt]

theorem slice_framed : slice (m :: body ++ [k]) 1 (body.length + 1) = body :=
  slice_middle [m] body [k] rfl (Nat.add_comm _ _)

end Framed

/-- Both frame formats are a start byte, a body and a checksum byte. -/
theorem exists_framed : ∀ {f : List Byte}, 2 ≤ f.length → ∃ m body k, f = m :: body ++ [k]
  | m :: x :: xs, _ => by
    have hk : (x :: xs).dropLast ++ [(x :: xs).getLast (List.cons_ne_nil x xs)] = x :: xs :=
      List.dropLast_append_getLast _
    exact ⟨m, _, _, by rw [List.cons_append, hk]⟩

/-- A master frame's body is any list whose fourth byte counts the bytes after it. -/
theorem exists_masterBody : ∀ {body : List Byte}, body.length = (byteAt body 3).toNat + 4 →
    ∃ a cmd data, body = masterBody a cmd data ∧ data.length = (byteAt body 3).toNat
  | hi :: lo :: cmd :: n :: data, h => by
    have hdata : data.length = n.toNat := Nat.add_right_cancel (m := 4) h
    refine ⟨addrOf hi lo, cmd, data, ?_, hdata⟩
    rw [masterBody, addrHi_addrOf, addrLo_addrOf, hdata, BitVec.ofNat_toNat, BitVec.setWidth_eq]

/-- A slave frame's body is any list whose second byte counts the bytes after it. -/
theorem exists_slaveBody : ∀ {body : List Byte}, body.length = (byteAt body 1).toNat + 2 →
    ∃ cmd data, body = slaveBody cmd data ∧ data.length = (byteAt body 1).toNat
  | cmd :: n :: data, h => by
    have hdata : data.length = n.toNat := Nat.add_right_cancel (m := 2) h
    refine ⟨cmd, data, ?_, hdata⟩
    rw [slaveBody, hdata, BitVec.ofNat_toNat, BitVec.setWidth_eq]

/-- The clauses of R82 fix every byte of the frame but the address, the command and the data. -/
theorem eq_mkMaster_of_masterFrameValid {c : Config} {f : List Byte} (h : masterFrameValid c f = true) :
    ∃ a cmd data, f = mkMaster c a cmd data ∧ addrHi a ≠ c.masterStart ∧ data.length ≤ maxData := by
  simp only [masterFrameValid, Bool.and_eq_true, beq_iff_eq, bne_iff_ne, decide_eq_true_eq,
    csumOk_iff] at h
  obtain ⟨⟨⟨⟨⟨hlen, hstart⟩, hhi⟩, hmax⟩, hn⟩, hsum⟩ := h
  obtain ⟨m, body, k, rfl⟩ := exists_framed (by omega : 2 ≤ f.length)
  rw [length_framed] at hlen hn
  rw [byteAt_framed_succ m body k (by omega : 3 < body.length)] at hmax hn hsum
  rw [byteAt_framed_succ m body k (by omega : 0 < body.length)] at hhi
  have hlast : 5 + (byteAt body 3).toNat = body.length + 1 := by omega
  rw [hlast, byteAt_framed_last, slice_framed] at hsum
  obtain ⟨a, cmd, data, rfl, hdata⟩ := exists_masterBody (by omega : body.length = _ + 4)
  obtain rfl : m = c.masterStart := hstart
  exact ⟨a, cmd, data, by rw [hsum, mkMaster], hhi, by omega⟩

/-- The clauses of R83 fix every byte of the frame but the command and the data. -/
theorem eq_mkSlave_of_slaveFrameValid {c : Config} {f : List Byte} (h : slaveFrameValid c f = true) :
    ∃ cmd data, f = mkSlave c cmd data ∧ data.length ≤ 255 := by
  simp only [slaveFrameValid, Bool.and_eq_true, beq_iff_eq, decide_eq_true_eq, csumOk_iff] at h
  obtain ⟨⟨⟨hlen, hstart⟩, hn⟩, hsum⟩ := h
  obtain ⟨m, body, k, rfl⟩ := exists_framed (by omega : 2 ≤ f.length)
  rw [length_framed] at hlen hn
  rw [byteAt_framed_succ m body k (by omega : 1 < body.length)] at hn hsum
  have hlast : 3 + (byteAt body 1).toNat = body.length + 1 := by omega
  rw [hlast, byteAt_framed_last, slice_framed, hstart] at hsum
  obtain ⟨cmd, data, rfl, hdata⟩ := exists_slaveBody (by omega : body.length = _ + 2)
  obtain rfl : m = c.slaveStart := hstart
  exact ⟨cmd, data, by rw [hsum, mkSlave], by omega⟩

/-- Settles O29: a valid frame is a built one (`eq_mkMaster_of_masterFrameValid`), and a built one valid
(`masterFrameValid_mkMaster`). -/
theorem masterFrameValidityIsItsClauses : Obligations.MasterFrameValidityIsItsClauses := fun s _ =>
  ⟨_, rfl, eq_mkMaster_of_masterFrameValid, fun ⟨a, cmd, data, hf, ha, hdata⟩ =>
    hf ▸ masterFrameValid_mkMaster s.cfg a cmd data hdata ha⟩

/-- Settles O30: a valid frame is a built one (`eq_mkSlave_of_slaveFrameValid`), and a built one valid
(`slaveFrameValid_mkSlave`). -/
theorem slaveFrameValidityIsItsClauses : Obligations.SlaveFrameValidityIsItsClauses := fun s _ =>
  ⟨_, rfl, eq_mkSlave_of_slaveFrameValid, fun ⟨cmd, data, hf, hdata⟩ =>
    hf ▸ slaveFrameValid_mkSlave s.cfg cmd data hdata⟩

/-! ### The frames byte by byte (R84, R85) -/

theorem exec_mkmaster (s : State) (a : Addr) (cmd : Byte) {data : List Byte} (h : data.length ≤ maxData) :
    exec (.mkmaster a cmd data) s = .next (s.reply (.bytes (mkMaster s.cfg a cmd data))) := if_pos h

theorem exec_mkslave (s : State) (cmd : Byte) {data : List Byte} (h : data.length ≤ 255) :
    exec (.mkslave cmd data) s = .next (s.reply (.bytes (mkSlave s.cfg cmd data))) := if_pos h

/-- Settles O31: the layout of `mkMaster` and `mkSlave`, the slave checksum's cover as an append. -/
theorem framesAreBuiltFieldByField : Obligations.FramesAreBuiltFieldByField := by
  refine fun s a cmd data => ⟨fun hlen => ⟨_, ?_, rfl⟩, fun hlen => ⟨_, ?_, rfl⟩⟩
  · exact exec_mkmaster s a cmd hlen
  · rw [exec_mkslave s cmd hlen, ← slaveCover_slaveBody]
    rfl

end Sys2Proof.Machine

/-! ## The parser's master side (41_parser_master.md): the rows of WaitStart and WaitData, and DISPATCH -/

namespace Sys2Proof.Machine

/-! ### A selected row is what CONSUME does (R66, R90) -/

theorem exec_of_selectRow {s : State} {b : Byte} {i : Instr} (h : selectRow s b = i) :
    exec i s = consumeByte b s := h ▸ exec_selectRow s b

theorem overflowing_of_waitStart {s : State} (h : s.st = .waitStart) : s.overflowing = false := by
  simp [State.overflowing, h]

theorem overflowing_of_room {s : State} (h : s.cur < s.cfg.bufCap) : s.overflowing = false := by
  simp [State.overflowing, h]

/-! ### WaitStart (R91 to R93) -/

section WaitStart

variable {s : State} {b : Byte} (hst : s.st = .waitStart)

include hst

theorem consumeByte_waitStart : consumeByte b s = .next (waitStartRules b s) := by
  rw [consumeByte_of_room (overflowing_of_waitStart hst), parserRules, hst]

theorem consumeByte_slides (hp : s.prev ≠ s.cfg.masterStart) :
    consumeByte b s = .next (slideWindow b s) := by
  rw [consumeByte_waitStart hst, waitStartRules, if_neg hp]

theorem consumeByte_drops (hp : s.prev = s.cfg.masterStart) (hb : b = s.cfg.masterStart) :
    consumeByte b s = .next (dropDoubled s) := by
  rw [consumeByte_waitStart hst, waitStartRules, if_pos hp, if_pos hb]

theorem consumeByte_starts (hp : s.prev = s.cfg.masterStart) (hb : b ≠ s.cfg.masterStart) :
    consumeByte b s = .next (startFrame b s) := by
  rw [consumeByte_waitStart hst, waitStartRules, if_pos hp, if_neg hb]

end WaitStart

/-- Dropping one of two markers changes nothing: the window holds the marker already (R92). -/
theorem dropDoubled_of_armed {s : State} (h : s.prev = s.cfg.masterStart) : dropDoubled s = s := by
  rw [dropDoubled, ← h]

/-- Settles O9: the row the window selects, and what CONSUME does there. -/
theorem windowSlidesAndDropsDoubledMarker : Obligations.WindowSlidesAndDropsDoubledMarker := by
  intro s b hst
  have ho := overflowing_of_waitStart hst
  refine ⟨fun hp => ?_, fun hp => ?_⟩
  · have hrow : selectRow s b = .wsSlide b := by simp [selectRow, ho, hst, hp]
    exact (exec_of_selectRow hrow).trans (consumeByte_slides hst hp)
  · have hrow : selectRow s s.cfg.masterStart = .wsDbl := by simp [selectRow, ho, hst, hp]
    rw [exec_of_selectRow hrow, consumeByte_drops hst hp rfl, dropDoubled_of_armed hp]

/-- Settles O10: the row an armed window selects for another byte; its two writes are
`readBuf_startFrame`. -/
theorem markerThenOtherByteStartsFrame : Obligations.MarkerThenOtherByteStartsFrame := by
  intro s b hst hp hb
  have hrow : selectRow s b = .wsStart b := by
    simp [selectRow, overflowing_of_waitStart hst, hst, hp, hb]
  exact ⟨startFrame b s, (exec_of_selectRow hrow).trans (consumeByte_starts hst hp hb), rfl,
    readBuf_startFrame s b⟩

/-! ### What an append does not touch, and what is said of a state with another one's buffer -/

/-- `BufAppended` speaks of two buffers and a cursor only. -/
theorem BufAppended.congr {s s' t t' : State} {bs : List Byte} (h : BufAppended s t bs)
    (hs : s'.mem = s.mem) (hc : s'.cur = s.cur) (ht : t'.mem = t.mem) : BufAppended s' t' bs := by
  intro i
  rw [readBuf_congr ht, hc, h i, readBuf_congr hs]

theorem bufAppended_append (s : State) (b : Byte) : BufAppended s (s.append b) [b] :=
  appendAll_bytes [b] s

/-- A flush of `u` is one of `s`, where `u` is `s` but for its session, and the events `old` more. -/
theorem Flushed.since {s u t : State} {old pre : List Event} {tr : List Byte} {seed : Byte}
    (h : Flushed u t pre tr seed)
    (hu : u = { s with
      mem := u.mem, st := u.st, cur := u.cur, sorg := u.sorg, prev := u.prev, trace := u.trace })
    (htrace : u.trace = s.trace ++ old) : Flushed s t (old ++ pre) tr seed := by
  obtain ⟨ht, es, hes, htr⟩ := h
  rw [hu] at ht hes
  exact ⟨ht, es, hes, by rw [htr, htrace, List.append_assoc s.trace]⟩

theorem raiseError_append_flushed (e : ErrorClass) (s : State) (b : Byte) :
    Flushed s (raiseError e (s.append b)) [.log e] (s.transcript ++ [b]) 0 := by
  rw [← transcript_append]
  exact (raiseError_flushed e (s.append b)).since (old := []) rfl (by simp)

theorem raiseError_append_bytes (e : ErrorClass) (s : State) (b : Byte) :
    BufAppended s (raiseError e (s.append b)) [b] :=
  (bufAppended_append s b).congr rfl rfl (raiseError_mem e _)

/-- An append changes memory and the cursor. -/
theorem append_frame (s : State) (b : Byte) :
    s.append b = { s with mem := (s.append b).mem, cur := s.cur + 1 } := rfl

theorem frameAddr_append {s : State} (h : 5 ≤ s.cur) (b : Byte) :
    (s.append b).frameAddr = s.frameAddr := by
  unfold State.frameAddr
  rw [readBuf_append_of_lt (by omega), readBuf_append_of_lt (by omega)]

theorem frameCmd_append {s : State} (h : 5 ≤ s.cur) (b : Byte) :
    (s.append b).frameCmd = s.frameCmd := readBuf_append_of_lt (by omega) b

theorem pollAnswer_append (s : State) (b : Byte) (a : Addr) (c : Byte) :
    pollAnswer (s.append b) a c = pollAnswer s a c := rfl

theorem afterPoll_append (s : State) (b : Byte) (a : Addr) (c : Byte) :
    afterPoll (s.append b) a c = (afterPoll s a c).append b := by
  have he : (s.append b).entry ⟨a, c⟩ = s.entry ⟨a, c⟩ := rfl
  unfold afterPoll
  rw [append_tokenBound, he]
  split
  · split
    · rfl
    · split <;> rfl
  · rfl

theorem polled_append {s : State} (h : 5 ≤ s.cur) (b : Byte) :
    (s.append b).polled = s.polled.append b := by
  rw [State.polled, frameAddr_append h, frameCmd_append h, afterPoll_append, State.polled]

@[simp] theorem polled_cur (s : State) : s.polled.cur = s.cur := by rw [polled_frame]

theorem polled_transcript (s : State) : s.polled.transcript = s.transcript := by
  rw [polled_frame]
  rfl

theorem dispatchClass_append {s : State} (h : 5 ≤ s.cur) (b : Byte) :
    (s.append b).dispatchClass = s.dispatchClass := by
  unfold State.dispatchClass
  rw [frameAddr_append h, frameCmd_append h, frameLen_append h, append_ackset, pollAnswer_append]

/-! ### What the appended byte makes of the frame (R94 to R97) -/

/-- The appended byte may be the length byte. -/
theorem frameLen_append_four {s : State} (h : s.cur = 4) (b : Byte) :
    (s.append b).frameLen = b.toNat := by
  rw [State.frameLen, readBuf_append, if_pos h.symm]

/-- Byte `b` neither ends the frame nor declares an impossible length (R94). -/
def State.Continues (s : State) (b : Byte) : Prop :=
  s.cur < 4 ∨ (s.cur = 4 ∧ b.toNat ≤ maxData) ∨ (5 ≤ s.cur ∧ s.cur + 1 < 6 + s.frameLen)

theorem State.Continues.dataClass {s : State} {b : Byte} (h : s.Continues b) :
    (s.append b).dataClass = .append := by
  rw [State.dataClass, append_cur]
  obtain h | ⟨h4, hn⟩ | ⟨h5, hn⟩ := h
  · exact if_pos (by omega)
  · rw [frameLen_append_four h4, if_neg (by omega), if_neg (by omega), if_pos (by omega)]
  · rw [frameLen_append h5, if_neg (by omega), if_neg (by omega), if_pos (by omega)]

theorem dataClass_append_badLen {s : State} {b : Byte} (h4 : s.cur = 4) (hn : maxData < b.toNat) :
    (s.append b).dataClass = .badLen := by
  rw [State.dataClass, append_cur, frameLen_append_four h4, if_neg (by omega), if_pos (by omega)]

/-- The last byte is held against the checksum of the bytes before it (R96). -/
theorem frameSumOk_append {s : State} (h : s.cur = 5 + s.frameLen) (b : Byte) :
    (s.append b).frameSumOk = csumOk s.cfg (s.bufSlice 1 (5 + s.frameLen)) b := by
  rw [State.frameSumOk, frameLen_append (by omega), readBuf_append, if_pos h.symm,
    bufSlice_congr (s := s) fun k _ hk => readBuf_append_of_lt (by omega) b]
  rfl

theorem dataClass_append_last {s : State} (h : s.cur = 5 + s.frameLen) (b : Byte) :
    (s.append b).dataClass =
      if b = csum s.cfg (s.bufSlice 1 (5 + s.frameLen)) then .valid else .badSum := by
  rw [State.dataClass, append_cur, frameLen_append (by omega), if_neg (by omega), if_neg (by omega),
    if_neg (by omega), frameSumOk_append h]
  simp only [csumOk_iff]

section FrameEnds

variable {s : State} {b : Byte} (h : s.FrameEnds b)

include h

theorem State.FrameEnds.st : s.st = .waitData := h.1

theorem State.FrameEnds.overflowing : s.overflowing = false := by
  obtain ⟨-, hroom, -⟩ := h
  exact overflowing_of_room hroom

theorem State.FrameEnds.cur : s.cur = 5 + s.frameLen := by
  obtain ⟨-, -, hend, -⟩ := h
  exact hend

theorem State.FrameEnds.five_le_cur : 5 ≤ s.cur := by
  have := h.cur
  omega

theorem State.FrameEnds.dataClass : (s.append b).dataClass = .valid := by
  obtain ⟨-, -, hend, hsum⟩ := h
  rw [dataClass_append_last hend, if_pos hsum]

/-- The row of a valid frame's last byte runs the dispatch on the whole frame (R97, R99). -/
theorem exec_selectRow_frameEnds : exec (selectRow s b) s = execDispatch (s.append b) :=
  exec_selectRow_valid b h.overflowing h.st h.dataClass

theorem exec_dispatchRow {d : DispatchClass} (hd : s.dispatchClass = d) :
    exec (dispatchRow b d) s = runDispatch d (s.append b) := by
  have hclass : (s.append b).dispatchClass = d := (dispatchClass_append h.five_le_cur b).trans hd
  have hrow : selectRow s b = dispatchRow b d := by
    simp [selectRow, h.overflowing, h.st, h.dataClass, hclass]
  rw [← hrow, exec_selectRow_frameEnds h, execDispatch, hclass]

end FrameEnds

section WaitData

variable {s : State} {b : Byte} (hst : s.st = .waitData) (hroom : s.cur < s.cfg.bufCap)

include hst hroom

theorem consumeByte_waitData : consumeByte b s = waitDataRules b s := by
  rw [consumeByte_of_room (overflowing_of_room hroom), parserRules, hst]

theorem State.Continues.consumeByte (h : s.Continues b) :
    Machine.consumeByte b s = .next (s.append b) := by
  rw [consumeByte_waitData hst hroom, waitDataRules, pushByte_room hroom, andThen_next, h.dataClass]

theorem exec_wdAppend (h : s.Continues b) : exec (.wdAppend b) s = .next (s.append b) :=
  if_pos (by simp [selectRow, overflowing_of_room hroom, hst, h.dataClass])

theorem exec_wdBadlen (h : (s.append b).dataClass = .badLen) :
    exec (.wdBadlen b) s = .next (raiseError .malformedFrame (s.append b)) :=
  if_pos (by simp [selectRow, overflowing_of_room hroom, hst, h])

theorem exec_wdBadsum (h : (s.append b).dataClass = .badSum) :
    exec (.wdBadsum b) s = .next (raiseError .checksumMismatch (s.append b)) :=
  if_pos (by simp [selectRow, overflowing_of_room hroom, hst, h])

end WaitData

/-- Settles O12, by the three places at which the frame goes on (`State.Continues`). -/
theorem dataByteIsAppended : Obligations.DataByteIsAppended := fun s b hst hroom h =>
  ⟨s.append b, exec_wdAppend hst hroom h, rfl, bufAppended_append s b⟩

/-- Settles O13: the fifth byte declares more than `maxData`, and the error flushes what was appended. -/
theorem impossibleLengthIsMalformed : Obligations.ImpossibleLengthIsMalformed :=
  fun s b hst hroom h4 hn =>
    ⟨_, exec_wdBadlen hst hroom (dataClass_append_badLen h4 hn), raiseError_append_flushed _ s b,
      raiseError_append_bytes _ s b⟩

/-- Settles O14: the last byte is not the checksum, and the error flushes what was appended. -/
theorem wrongChecksumIsFlushedSilently : Obligations.WrongChecksumIsFlushedSilently :=
  fun s b hst hroom hend hsum =>
    have hd : (s.append b).dataClass = .badSum := (dataClass_append_last hend b).trans (if_neg hsum)
    ⟨_, exec_wdBadsum hst hroom hd, raiseError_append_flushed _ s b, raiseError_append_bytes _ s b⟩

/-! ### The choice of DISPATCH (R99) -/

section DispatchClass

variable {s : State}

theorem dispatchClass_pollAns {p : List Byte} (ha : s.frameAddr ∈ s.ackset) (hn : s.frameLen = 0)
    (hp : pollAnswer s s.frameAddr s.frameCmd = .supplied p) (hne : p ≠ []) :
    s.dispatchClass = .pollAns p := by
  simp [State.dispatchClass, ha, hn, hp, hne]

theorem dispatchClass_pollAck (ha : s.frameAddr ∈ s.ackset) (hn : s.frameLen = 0)
    (hp : pollAnswer s s.frameAddr s.frameCmd = .nothing ∨
      pollAnswer s s.frameAddr s.frameCmd = .supplied []) : s.dispatchClass = .pollAck := by
  obtain hp | hp := hp <;> simp [State.dispatchClass, ha, hn, hp]

theorem dispatchClass_dataAck (ha : s.frameAddr ∈ s.ackset) (hn : 0 < s.frameLen) :
    s.dispatchClass = .dataAck := by
  rw [State.dispatchClass, if_pos ha, if_neg hn.ne']

theorem dispatchClass_pollObs (ha : s.frameAddr ∉ s.ackset) (hn : s.frameLen = 0) :
    s.dispatchClass = .pollObs := by
  rw [State.dispatchClass, if_neg ha, if_pos hn]

theorem dispatchClass_dataObs (ha : s.frameAddr ∉ s.ackset) (hn : 0 < s.frameLen) :
    s.dispatchClass = .dataObs := by
  rw [State.dispatchClass, if_neg ha, if_neg hn.ne']

end DispatchClass

/-! ### The rules DISPATCH chooses from (R100 to R104) -/

/-- R100, with room for the payload: it is sent and stands after the frame. -/
theorem answerPoll_append {s : State} {p : List Byte} (hroom : s.cur + 1 + p.length ≤ s.cfg.bufCap)
    (b : Byte) : answerPoll p (s.append b) =
      .next { appendAll (b :: p) (sendBytes p s) with st := .waitAck } := by
  have hpush : pushBytes p ((sendBytes p s).append b) = .next (appendAll (b :: p) (sendBytes p s)) :=
    pushBytes_room hroom
  exact congrArg (andThen · _) hpush

/-- The block's own ack sent, and in the buffer after the frame's last byte. -/
def State.acked (s : State) (b : Byte) : State :=
  appendAll [b, s.cfg.ack] (sendBytes [s.cfg.ack] s)

/-- R101 and R102, with room for the ack: it is sent, stands after the frame, and all is flushed. -/
theorem ackAndComplete_append {s : State} (hroom : s.cur + 2 ≤ s.cfg.bufCap) (b : Byte) :
    ∃ t, ackAndComplete (s.append b) = .next t ∧
      Flushed s t (sendEvents s.cfg [s.cfg.ack]) (s.transcript ++ [b, s.cfg.ack]) 0 ∧
      BufAppended s t [b, s.cfg.ack] := by
  have hpush : pushByte s.cfg.ack (sendBytes [s.cfg.ack] (s.append b)) = .next (s.acked b) :=
    pushByte_room (s := sendBytes _ (s.append b)) hroom _
  have htr : (s.acked b).transcript = s.transcript ++ [b, s.cfg.ack] := transcript_appendAll _ _
  refine ⟨complete 0 (s.acked b), congrArg (andThen · _) hpush, ?_, ?_⟩
  · rw [← htr, ← List.append_nil (sendEvents _ _)]
    exact (complete_flushed 0 (s.acked b)).since rfl rfl
  · exact (appendAll_bytes _ _).congr rfl rfl (complete_mem 0 (s.acked b))

/-- Settles O18: `dispatchRow` in its last two cases, which only name the next state. -/
theorem foreignFrameIsObserved : Obligations.ForeignFrameIsObserved := fun s b h ha =>
  ⟨fun hn => ⟨_, exec_dispatchRow h (dispatchClass_pollObs ha hn), rfl, bufAppended_append s b⟩,
    fun hn => ⟨_, exec_dispatchRow h (dispatchClass_dataObs ha hn), rfl, bufAppended_append s b⟩⟩

/-- Settles O17: `ackAndComplete_append`, in the polled state for a poll and in the state itself for data. -/
theorem impersonatedFrameIsAcked : Obligations.ImpersonatedFrameIsAcked := by
  refine fun s b h ha hroom => ⟨fun hn hp => ?_, fun hn => ?_⟩
  · have hx : exec (.wdPollAck b) s = ackAndComplete (s.append b).polled :=
      exec_dispatchRow h (dispatchClass_pollAck ha hn hp)
    obtain ⟨t, ht, hf, hb⟩ := ackAndComplete_append (s := s.polled) (by simpa using hroom) b
    rw [polled_cfg, polled_transcript] at hf
    rw [polled_cfg] at hb
    exact ⟨t, by rw [hx, polled_append h.five_le_cur, ht], hf,
      hb.congr (polled_mem s).symm (polled_cur s).symm rfl⟩
  · have hx : exec (.wdDataAck b) s = ackAndComplete (s.append b) :=
      exec_dispatchRow h (dispatchClass_dataAck ha hn)
    rw [hx]
    exact ackAndComplete_append hroom b

/-- Settles O15: `answerPoll_append` in the polled state; what the appends and the poll change are their frame
lemmas. -/
theorem impersonatedPollIsAnswered : Obligations.ImpersonatedPollIsAnswered := by
  intro s b p h ha hn hp hne hroom
  have hcur : s.cur = 5 := by rw [h.cur, hn]
  have hx : exec (.wdPollAns b) s = answerPoll p (s.append b).polled :=
    exec_dispatchRow h (dispatchClass_pollAns ha hn hp hne)
  rw [hx, polled_append h.five_le_cur, answerPoll_append (by simp only [polled_cur, polled_cfg]; omega)]
  have hlen : s.cur + (b :: p).length = 6 + p.length := by simp only [List.length_cons]; omega
  refine ⟨_, rfl, ?_, ?_⟩
  · rw [appendAll_frame, polled_frame, ← hlen]
    rfl
  · exact (appendAll_bytes (b :: p) (sendBytes p s.polled)).congr (polled_mem s).symm
      (polled_cur s).symm rfl

/-! ### Every byte is consumed (R90, R97) -/

theorem judgeProvider_cases {o : Option (List Byte)} (h : judgeProvider o ≠ .outOfContract) :
    judgeProvider o = .nothing ∨ ∃ p, judgeProvider o = .supplied p ∧ payloadOk p = true := by
  cases o with
  | none => exact .inl rfl
  | some p =>
    by_cases hnil : p = []
    · exact .inl (if_pos hnil)
    · by_cases hmax : maxResp < p.length
      · exact absurd ((if_neg hnil).trans (if_pos hmax)) h
      · refine .inr ⟨p, (if_neg hnil).trans (if_neg hmax), payloadOk_iff.mpr ⟨?_, not_lt.mp hmax⟩⟩
        exact List.length_pos_iff.mpr hnil

/-- What a poll gets, under the invariant and with providers in contract: nothing, or a payload within the
bounds of R142, R145 and R148. -/
theorem pollAnswer_cases {s : State} (h : ReqOk s.cfg s.req) (hp : s.ProvidersInContract) (a : Addr)
    (c : Byte) :
    pollAnswer s a c = .nothing ∨ ∃ p, pollAnswer s a c = .supplied p ∧ payloadOk p = true := by
  have he := h.entry ⟨a, c⟩
  unfold pollAnswer
  split
  · split
    next p q hq => exact .inr ⟨p, rfl, he.payloads p (by simp [hq])⟩
    next hq =>
      split
      next => exact .inl rfl
      next p hf => exact .inr ⟨p, rfl, he.constant p hf⟩
      next pid hf => exact judgeProvider_cases (hp ⟨a, c⟩ pid _ hf)
  · exact .inl rfl

/-- The state R99 to R104 lead to from a whole frame. -/
def State.afterDispatch (s : State) : ParserState :=
  if s.frameAddr ∈ s.ackset then
    if s.frameLen = 0 ∧ pollAnswer s s.frameAddr s.frameCmd ≠ .nothing then .waitAck
    else .waitStart
  else if s.frameLen = 0 then .waitStartSlave
  else .waitAck

theorem Flushed.st {s t : State} {pre : List Event} {tr : List Byte} {seed : Byte}
    (h : Flushed s t pre tr seed) : t.st = .waitStart := by rw [h.1]

theorem ackAndComplete_completes {s : State} (hroom : s.cur + 2 ≤ s.cfg.bufCap) (b : Byte) :
    ∃ t, ackAndComplete (s.append b) = .next t ∧ t.st = .waitStart :=
  have ⟨t, ht, hf, _⟩ := ackAndComplete_append hroom b
  ⟨t, ht, hf.st⟩

/-- At the end of a frame of legal length the buffer has room for every answer: two frames fit in it (R6). -/
theorem execDispatch_completes {s : State} (hs : s.StoreOk) (hp : s.ProvidersInContract)
    (h5 : 5 ≤ s.cur) (hmax : s.cur < maxFrame) (b : Byte) :
    ∃ t, execDispatch (s.append b) = .next t ∧ t.st = s.afterDispatch := by
  have hcap : 2 * maxFrame + 1 ≤ s.cfg.bufCap := hs.sizes.1
  have hroom : s.cur + 2 ≤ s.cfg.bufCap := by omega
  unfold execDispatch State.afterDispatch
  rw [dispatchClass_append h5]
  by_cases ha : s.frameAddr ∈ s.ackset
  · rw [if_pos ha]
    obtain hn | hn := Nat.eq_zero_or_pos s.frameLen
    · obtain hans | ⟨p, hans, hok⟩ := pollAnswer_cases hs.reqOk hp s.frameAddr s.frameCmd
      · rw [dispatchClass_pollAck ha hn (.inl hans), runDispatch, polled_append h5,
          if_neg (fun h => h.2 hans)]
        exact ackAndComplete_completes (by simpa using hroom) b
      · obtain ⟨hpos, hlen⟩ := payloadOk_iff.mp hok
        have hne : p ≠ [] := List.length_pos_iff.mp hpos
        have hfit : s.polled.cur + 1 + p.length ≤ s.polled.cfg.bufCap := by
          rw [polled_cur, polled_cfg]
          unfold maxResp at hlen
          omega
        rw [dispatchClass_pollAns ha hn hans hne, runDispatch, polled_append h5,
          answerPoll_append hfit, if_pos ⟨hn, by simp [hans]⟩]
        exact ⟨_, rfl, rfl⟩
    · rw [dispatchClass_dataAck ha hn, if_neg (fun h => hn.ne' h.1)]
      exact ackAndComplete_completes hroom b
  · rw [if_neg ha]
    obtain hn | hn := Nat.eq_zero_or_pos s.frameLen
    · rw [dispatchClass_pollObs ha hn, if_pos hn]
      exact ⟨_, rfl, rfl⟩
    · rw [dispatchClass_dataObs ha hn, if_neg hn.ne']
      exact ⟨_, rfl, rfl⟩

/-- Inside a frame, whose length byte, if there, is legal (clause (ii) of R26), the cursor stands below
`maxFrame`. -/
theorem State.InMasterFrame.cur_lt {s : State} (h : s.InMasterFrame) : s.cur < maxFrame := by
  obtain ⟨-, -, -, hlen⟩ := h
  have hframe : maxFrame = 6 + maxData := rfl
  by_cases h5 : 5 ≤ s.cur
  · have := hlen h5
    omega
  · omega

theorem exec_wdValid {s : State} {b : Byte} (h : s.FrameEnds b) :
    exec (.wdValid b) s = execDispatch (s.append b) := if_pos ⟨h.overflowing, h.st, h.dataClass⟩

/-- Settles O19: all three run DISPATCH on the whole frame, which completes (`execDispatch_completes`). -/
theorem validFrameIsDispatched : Obligations.ValidFrameIsDispatched := by
  intro s b hi hp h
  have hframe : s.InMasterFrame := hi.data h.st
  obtain ⟨t, ht, hst⟩ := execDispatch_completes hi.storeOk hp h.five_le_cur hframe.cur_lt b
  exact ⟨t, (exec_wdValid h).trans ht, ht, (exec_selectRow_frameEnds h).trans ht, hst⟩

theorem execAckh_completes {s : State} (hroom : s.cur < s.cfg.bufCap) (b : Byte) :
    ∃ t, execAckh b s = .next t := by
  rw [execAckh, pushByte_room hroom]
  exact ⟨_, rfl⟩

theorem waitDataRules_completes {s : State} (hs : s.StoreOk) (hp : s.ProvidersInContract)
    (hf : s.InMasterFrame) (b : Byte) : ∃ t, waitDataRules b s = .next t := by
  have hcap : 2 * maxFrame + 1 ≤ s.cfg.bufCap := hs.sizes.1
  have hlt := hf.cur_lt
  rw [waitDataRules, pushByte_room (by omega), andThen_next]
  cases hd : (s.append b).dataClass with
  | append | badLen | badSum => exact ⟨_, rfl⟩
  | valid =>
    obtain ⟨h5, -, hend, -⟩ := of_dataClass_valid hd
    obtain ⟨-, hcur⟩ := holdsMasterFrame_of_valid hf hd
    rw [append_cur] at hcur
    obtain ⟨t, ht, -⟩ := execDispatch_completes hs hp (by omega) hlt b
    exact ⟨t, ht⟩

theorem waitStartSlaveRules_completes {s : State} (hroom : s.cur < s.cfg.bufCap) (b : Byte) :
    ∃ t, waitStartSlaveRules b s = .next t := by
  unfold waitStartSlaveRules
  split_ifs
  · rw [pushByte_room hroom]
    exact ⟨_, rfl⟩
  · exact execAckh_completes hroom b

theorem waitDataSlaveRules_completes {s : State} (hroom : s.cur < s.cfg.bufCap) (b : Byte) :
    ∃ t, waitDataSlaveRules b s = .next t := by
  rw [waitDataSlaveRules, pushByte_room hroom]
  exact ⟨_, rfl⟩

theorem parserRules_completes {s : State} (hi : s.Inv) (hp : s.ProvidersInContract)
    (ho : s.overflowing = false) (b : Byte) : ∃ t, parserRules b s = .next t := by
  unfold parserRules
  cases hst : s.st with
  | waitStart => exact ⟨_, rfl⟩
  | waitData => exact waitDataRules_completes hi.storeOk hp (hi.data hst) b
  | waitStartSlave => exact waitStartSlaveRules_completes (cur_lt_bufCap ho (by simp [hst])) b
  | waitDataSlave => exact waitDataSlaveRules_completes (cur_lt_bufCap ho (by simp [hst])) b
  | waitAck => exact execAckh_completes (cur_lt_bufCap ho (by simp [hst])) b

/-- A full session is flushed before its byte is looked at, and an idle parser takes every byte (R121). -/
theorem consumeByte_of_full {s : State} (h : s.overflowing = true) (b : Byte) :
    consumeByte b s = .next (waitStartRules b (raiseError .bufferOverflow s)) := by
  rw [consumeByte, overflowGuard, if_pos h, parserRules, raiseError_st]

theorem consumeByte_completes {s : State} (hi : s.Inv) (hp : s.ProvidersInContract) (b : Byte) :
    ∃ t, consumeByte b s = .next t := by
  cases ho : s.overflowing with
  | true => exact ⟨_, consumeByte_of_full ho b⟩
  | false =>
    rw [consumeByte_of_room ho]
    exact parserRules_completes hi hp ho b

/-- Settles O44: completion state by state (`consumeByte_completes`), and the frame of a received byte. -/
theorem consumeIsTotal : Obligations.ConsumeIsTotal := by
  intro s b hi hp
  obtain ⟨t, ht⟩ := consumeByte_completes hi hp b
  have hframe : BusFrame s t := consumeByte_frame ht
  refine ⟨t.reply .done, ?_, congrArg (State.reply · .done) hframe⟩
  rw [exec, execConsume, ht, andThen_next]

/-! ### A whole frame from the idle parser (R106) -/

theorem feed_singleton (b : Byte) (s : State) : feed [b] s = consumeByte b s := by
  rw [feed]
  cases consumeByte b s <;> rfl

theorem State.Continues.feed_cons {s : State} {b : Byte} (h : s.Continues b) (hst : s.st = .waitData)
    (hroom : s.cur < s.cfg.bufCap) (bs : List Byte) : feed (b :: bs) s = feed bs (s.append b) := by
  rw [feed, h.consumeByte hst hroom, andThen_next]

/-- After the length byte, bytes that leave the frame incomplete are appended one by one. -/
theorem feed_data {bs : List Byte} {s : State} (hst : s.st = .waitData) (h5 : 5 ≤ s.cur)
    (hlen : s.cur + bs.length < 6 + s.frameLen) (hroom : s.cur + bs.length ≤ s.cfg.bufCap) :
    feed bs s = .next (appendAll bs s) := by
  induction bs generalizing s with
  | nil => rfl
  | cons b bs ih =>
    rw [List.length_cons] at hlen hroom
    have hb : s.Continues b := .inr (.inr ⟨h5, by omega⟩)
    rw [hb.feed_cons hst (by omega), appendAll]
    refine ih hst (Nat.le_succ_of_le h5) ?_ ?_
    · rw [frameLen_append h5, append_cur]
      omega
    · rw [append_cur, append_cfg]
      omega

/-- The bytes of a master frame between the address high byte and the checksum (R61). -/
def masterTail (a : Addr) (cmd : Byte) (data : List Byte) : List Byte :=
  addrLo a :: cmd :: BitVec.ofNat 8 data.length :: data

theorem toNat_lengthByte {data : List Byte} (h : data.length ≤ maxData) :
    (BitVec.ofNat 8 data.length).toNat = data.length :=
  Nat.mod_eq_of_lt (lt_of_le_of_lt h (by decide))

/-- From the frame start on, all but the checksum is appended: the bytes before the length byte, the length
byte as it is legal, and the data as the frame then lacks the checksum. -/
theorem feed_masterTail {s : State} (a : Addr) (cmd : Byte) {data : List Byte} (hst : s.st = .waitData)
    (hcur : s.cur = 2) (hcap : maxFrame ≤ s.cfg.bufCap) (hdata : data.length ≤ maxData) :
    feed (masterTail a cmd data) s = .next (appendAll (masterTail a cmd data) s) := by
  have hn := toNat_lengthByte hdata
  have hframe : maxFrame = 6 + maxData := rfl
  have hlo : s.Continues (addrLo a) := .inl (by omega)
  have hcmd : (s.append (addrLo a)).Continues cmd := .inl (by simp only [append_cur]; omega)
  have h4 : ((s.append (addrLo a)).append cmd).cur = 4 := by simp only [append_cur, hcur]
  have hlen : ((s.append (addrLo a)).append cmd).Continues (BitVec.ofNat 8 data.length) :=
    .inr (.inl ⟨h4, hn.trans_le hdata⟩)
  rw [masterTail, hlo.feed_cons hst (by omega),
    hcmd.feed_cons hst (by simp only [append_cur, append_cfg]; omega),
    hlen.feed_cons hst (by simp only [append_cfg]; omega)]
  refine feed_data hst ?_ ?_ ?_
  · rw [append_cur, h4]
  · rw [append_cur, h4, frameLen_append_four h4, hn]
    omega
  · rw [append_cur, h4]
    simp only [append_cfg]
    omega

/-- A byte of the transcript. -/
theorem byteAt_transcript {s : State} {i : Nat} (h : i < s.cur) :
    byteAt s.transcript i = s.readBuf i := by
  rw [State.transcript, byteAt_bufSlice (by omega), Nat.zero_add]

theorem transcript_startFrame (s : State) (b : Byte) :
    (startFrame b s).transcript = [s.cfg.masterStart, b] := by
  have hbytes : (startFrame b s).transcript =
    [(startFrame b s).readBuf 0, (startFrame b s).readBuf 1] := rfl
  rw [hbytes, readBuf_startFrame, readBuf_startFrame]
  rfl

/-- The fields of the frame a transcript begins with, read off the buffer (R64, R98). -/
theorem frameFields_of_transcript {s : State} {m : Byte} {a : Addr} {cmd : Byte} {data rest : List Byte}
    (hdata : data.length ≤ maxData) (h : s.transcript = m :: masterBody a cmd data ++ rest) :
    s.frameAddr = a ∧ s.frameCmd = cmd ∧ s.frameLen = data.length := by
  have hcur : s.cur = (m :: masterBody a cmd data ++ rest).length := by
    rw [← h, State.transcript, bufSlice_length, Nat.sub_zero]
  have hb : ∀ i < 5, s.readBuf i = byteAt (m :: masterBody a cmd data ++ rest) i := fun i hi => by
    rw [← h, byteAt_transcript (by simp [hcur, masterBody]; omega)]
  refine ⟨?_, hb 3 (by decide), ?_⟩
  · rw [State.frameAddr, hb 1 (by decide), hb 2 (by decide)]
    exact addrOf_addrHi_addrLo a
  · rw [State.frameLen, hb 4 (by decide)]
    exact toNat_lengthByte hdata

/-- The state of an idle parser in which `mkMaster` lacks only its checksum (R84). -/
def State.captured (s : State) (a : Addr) (cmd : Byte) (data : List Byte) : State :=
  appendAll (masterTail a cmd data) (startFrame (addrHi a) (slideWindow s.cfg.masterStart s))

section Captured

variable {s : State} {a : Addr} (cmd : Byte) {data : List Byte}

theorem captured_frame (s : State) (a : Addr) (data : List Byte) :
    s.captured a cmd data =
      { s with
        mem := (s.captured a cmd data).mem, st := .waitData, cur := 5 + data.length,
        prev := addrHi a } := by
  have hcur : 2 + (masterTail a cmd data).length = 5 + data.length := by
    simp only [masterTail, List.length_cons]
    omega
  rw [← hcur]
  exact appendAll_frame _ _

theorem transcript_captured (s : State) (a : Addr) (data : List Byte) :
    (s.captured a cmd data).transcript = s.cfg.masterStart :: masterBody a cmd data := by
  rw [State.captured, transcript_appendAll, transcript_startFrame]
  rfl

theorem frameEnds_captured (s : State) (a : Addr) (hcap : maxFrame ≤ s.cfg.bufCap)
    (hdata : data.length ≤ maxData) :
    (s.captured a cmd data).FrameEnds (csum s.cfg (masterBody a cmd data)) := by
  have hframe : maxFrame = 6 + maxData := rfl
  have htr := transcript_captured cmd s a data
  obtain ⟨-, -, hlen⟩ := frameFields_of_transcript (rest := []) hdata (by rw [htr, List.append_nil])
  have hst : (s.captured a cmd data).st = .waitData := by rw [captured_frame]
  have hcur : (s.captured a cmd data).cur = 5 + data.length := by rw [captured_frame]
  have hcfg : (s.captured a cmd data).cfg = s.cfg := by rw [captured_frame]
  have hbody : (s.captured a cmd data).bufSlice 1 (5 + data.length) = masterBody a cmd data := by
    rw [← slice_bufSlice _ hcur.ge, ← State.transcript, htr]
    have h := slice_middle [s.cfg.masterStart] (masterBody a cmd data) [] (j := 5 + data.length) rfl
      (by simp only [masterBody, List.length_cons, List.length_nil]; omega)
    rwa [List.append_nil] at h
  refine ⟨hst, ?_, ?_, ?_⟩
  · rw [hcur, hcfg]
    omega
  · rw [hcur, hlen]
  · rw [hlen, hbody, hcfg]

/-- The window slides to the marker, the address high byte starts the frame, and the rest is appended. -/
theorem feed_mkMaster (hcap : maxFrame ≤ s.cfg.bufCap) (hst : s.st = .waitStart)
    (hp : s.prev ≠ s.cfg.masterStart) (ha : addrHi a ≠ s.cfg.masterStart)
    (hdata : data.length ≤ maxData) :
    feed (mkMaster s.cfg a cmd data) s =
      execDispatch ((s.captured a cmd data).append (csum s.cfg (masterBody a cmd data))) := by
  have hbytes : mkMaster s.cfg a cmd data = s.cfg.masterStart :: addrHi a ::
    (masterTail a cmd data ++ [csum s.cfg (masterBody a cmd data)]) := rfl
  have htail : feed (masterTail a cmd data)
      (startFrame (addrHi a) (slideWindow s.cfg.masterStart s)) = .next (s.captured a cmd data) :=
    feed_masterTail a cmd rfl rfl hcap hdata
  have hstart : consumeByte (addrHi a) (slideWindow s.cfg.masterStart s) =
      .next (startFrame (addrHi a) (slideWindow s.cfg.masterStart s)) :=
    consumeByte_starts hst rfl ha
  have hend := frameEnds_captured cmd s a hcap hdata
  rw [hbytes, feed, consumeByte_slides hst hp, andThen_next, feed, hstart, andThen_next, feed_append, htail,
    andThen_next, feed_singleton, ← exec_selectRow, exec_selectRow_frameEnds hend]

end Captured

/-- Settles O59: `feed_mkMaster` runs the frame; what the state then holds is read off its transcript. -/
theorem validFrameReachesDispatch : Obligations.ValidFrameReachesDispatch := by
  intro s a cmd data hlegal hst _ hp ha hdata
  have hcap : maxFrame ≤ s.cfg.bufCap := by
    obtain ⟨-, -, -, -, -, -, -, -, hcap, -⟩ := (legal_iff _).mp hlegal
    exact le_trans (by decide) hcap
  have htr : ((s.captured a cmd data).append (csum s.cfg (masterBody a cmd data))).transcript =
      mkMaster s.cfg a cmd data := by
    rw [transcript_append, transcript_captured, mkMaster]
  refine ⟨_, feed_mkMaster cmd hcap hst hp ha hdata, ?_, htr, frameFields_of_transcript hdata htr⟩
  have hcur : 6 + data.length = 5 + data.length + 1 := by omega
  refine (append_frame _ _).trans ?_
  generalize ((s.captured a cmd data).append _).mem = m
  rw [captured_frame, hcur]

end Sys2Proof.Machine

/-! ## The slave side, the ack/nak handler and the flush (42_parser_slave_ack.md) -/

namespace Sys2Proof.Machine

/-! ### The flush and the overflow (R118, R121) -/

/-- Settles O24: everything a flush does is `complete_flushed`. -/
theorem completeFlushesAndResetsTheSession : Obligations.CompleteFlushesAndResetsTheSession :=
  fun s seed => ⟨complete seed s, rfl, complete_flushed seed s, complete_readBuf seed s⟩

/-- The byte after a flush, where the window is not armed, only replaces the seed (R91). -/
theorem Flushed.slideWindow {s t : State} {pre : List Event} {tr : List Byte} {seed : Byte}
    (h : Flushed s t pre tr seed) (b : Byte) : Flushed s (slideWindow b t) pre tr b := by
  obtain ⟨ht, hdel⟩ := h
  exact ⟨congrArg (Machine.slideWindow b) ht, hdel⟩

/-- An error leaves the window unarmed, so the byte that met the full buffer slides into it (R121); `M ≠ 0` is a
constraint of R6. -/
theorem consumeByte_overflows {s : State} (hlegal : s.cfg.legal = true) (h : s.overflowing = true)
    (b : Byte) : consumeByte b s = .next (slideWindow b (raiseError .bufferOverflow s)) := by
  obtain ⟨-, -, -, -, -, -, hM, -⟩ := (legal_iff _).mp hlegal
  have hprev : (raiseError .bufferOverflow s).prev ≠ (raiseError .bufferOverflow s).cfg.masterStart := by
    rw [raiseError_cfg]
    exact hM.symm
  rw [consumeByte_of_full h, waitStartRules, if_neg hprev]

/-- Settles O11: on a full buffer OVF is the selected row, and `consumeByte_overflows` says what it does. -/
theorem overflowFlushesAndKeepsTheByte : Obligations.OverflowFlushesAndKeepsTheByte := by
  intro s b hlegal hst hfull
  have ho : s.overflowing = true := by simp [State.overflowing, hst, hfull]
  have hrow : selectRow s b = .ovf s.st b := by simp [selectRow, ho]
  exact ⟨_, (exec_of_selectRow hrow).trans (consumeByte_overflows hlegal ho b),
    (raiseError_flushed _ s).slideWindow b, raiseError_readBuf _ s⟩

/-! ### The slave frame (R110 to R113) -/

theorem startSlaveFrame_bytes (s : State) : BufAppended s (startSlaveFrame s) [s.cfg.slaveStart] :=
  (bufAppended_append s s.cfg.slaveStart).congr rfl rfl rfl

theorem selectRow_wssStart {s : State} (hst : s.st = .waitStartSlave) (hroom : s.cur < s.cfg.bufCap) :
    selectRow s s.cfg.slaveStart = .wssStart := by
  simp [selectRow, overflowing_of_room hroom, hst]

theorem exec_wssStart {s : State} (hst : s.st = .waitStartSlave) (hroom : s.cur < s.cfg.bufCap) :
    exec .wssStart s = .next (startSlaveFrame s) := if_pos (selectRow_wssStart hst hroom)

/-- Settles O20: the selected row is WSS.START, and it appends the marker. -/
theorem slaveMarkerStartsSlaveFrame : Obligations.SlaveMarkerStartsSlaveFrame := fun s hst hroom =>
  ⟨startSlaveFrame s, exec_wssStart hst hroom, rfl, startSlaveFrame_bytes s⟩

/-- The length byte of the slave frame, once `b` is appended (R112). -/
def State.slaveLenWith (s : State) (b : Byte) : Nat :=
  (if s.sorg + 2 = s.cur then b else s.readBuf (s.sorg + 2)).toNat

/-- R113: the appended byte ends the slave frame when the declared length and the four bytes around the data are
held. -/
theorem slaveDone_append (s : State) (b : Byte) :
    (s.append b).slaveDone = true ↔
      3 ≤ s.cur + 1 - s.sorg ∧ s.slaveLenWith b + 4 ≤ s.cur + 1 - s.sorg := by
  rw [State.slaveDone, Bool.and_eq_true, decide_eq_true_eq, decide_eq_true_eq, readBuf_append]
  rfl

theorem slaveDone_append_eq_false {s : State} {b : Byte}
    (h : s.cur + 1 - s.sorg < 3 ∨ s.cur + 1 - s.sorg < s.slaveLenWith b + 4) :
    (s.append b).slaveDone = false := by
  rw [← Bool.not_eq_true, slaveDone_append]
  omega

section SlaveFrame

variable {s : State} {b : Byte} (hst : s.st = .waitDataSlave) (hroom : s.cur < s.cfg.bufCap)

include hst hroom

theorem exec_wdsAppend (h : (s.append b).slaveDone = false) :
    exec (.wdsAppend b) s = .next (s.append b) :=
  if_pos (by simp [selectRow, overflowing_of_room hroom, hst, h])

theorem exec_wdsDone (h : (s.append b).slaveDone = true) :
    exec (.wdsDone b) s = .next { s.append b with st := .waitAck } :=
  if_pos (by simp [selectRow, overflowing_of_room hroom, hst, h])

end SlaveFrame

/-- Settles O21, by whether the appended byte ends the slave frame (`slaveDone_append`). -/
theorem slaveFrameIsTakenByLength : Obligations.SlaveFrameIsTakenByLength := fun s b hst hroom =>
  ⟨fun h => ⟨s.append b, exec_wdsAppend hst hroom (slaveDone_append_eq_false h), rfl,
      bufAppended_append s b⟩,
    fun h => ⟨{ s.append b with st := .waitAck },
      exec_wdsDone hst hroom ((slaveDone_append s b).mpr h), rfl,
      (bufAppended_append s b).congr rfl rfl rfl⟩⟩

/-! ### The ack/nak handler (R114 to R120) -/

section AckClasses

variable {s : State} {b : Byte}

theorem classifyAck_sentinel (h : b = s.cfg.ack ∨ b = s.cfg.nak) :
    classifyAck b s = complete 0 s := by
  unfold classifyAck
  split_ifs with hack hnak
  · rfl
  · rfl
  all_goals exact absurd h (not_or.mpr ⟨hack, hnak⟩)

theorem classifyAck_mark (h : ¬(b = s.cfg.ack ∨ b = s.cfg.nak)) (hb : b = s.cfg.masterStart) :
    classifyAck b s = finishMark s := by
  obtain ⟨hack, hnak⟩ := not_or.mp h
  rw [classifyAck, if_neg hack, if_neg hnak, if_pos hb]

theorem classifyAck_other (h : ¬(b = s.cfg.ack ∨ b = s.cfg.nak)) (hb : b ≠ s.cfg.masterStart) :
    classifyAck b s = raiseError .unexpectedAckByte s := by
  obtain ⟨hack, hnak⟩ := not_or.mp h
  rw [classifyAck, if_neg hack, if_neg hnak, if_neg hb, finishOther]

end AckClasses

theorem complete_append_flushed (seed : Byte) (s : State) (b : Byte) :
    Flushed s (complete seed (s.append b)) [] (s.transcript ++ [b]) seed := by
  rw [← transcript_append]
  exact (complete_flushed seed (s.append b)).since (old := []) rfl (by simp)

theorem complete_append_bytes (seed : Byte) (s : State) (b : Byte) :
    BufAppended s (complete seed (s.append b)) [b] :=
  (bufAppended_append s b).congr rfl rfl (complete_mem seed _)

/-- R119: the marker is appended and rolled back, so the transcript is the one before it. -/
theorem transcript_rollBack (s : State) (b : Byte) :
    State.transcript { s.append b with cur := s.cur } = s.transcript :=
  bufSlice_congr (s := s) fun _ _ hk => readBuf_append_of_lt (s := s) hk b

theorem finishMark_append_flushed (s : State) (b : Byte) :
    Flushed s (finishMark (s.append b)) [] s.transcript s.cfg.masterStart := by
  rw [← transcript_rollBack s b]
  exact (complete_flushed _ { s.append b with cur := s.cur }).since (old := []) rfl (by simp)

theorem classifyAck_append_flushed (s : State) (b : Byte) :
    if b = s.cfg.ack ∨ b = s.cfg.nak then
      Flushed s (classifyAck b (s.append b)) [] (s.transcript ++ [b]) 0
    else if b = s.cfg.masterStart then
      Flushed s (classifyAck b (s.append b)) [] s.transcript s.cfg.masterStart
    else
      Flushed s (classifyAck b (s.append b)) [.log .unexpectedAckByte] (s.transcript ++ [b]) 0 := by
  split_ifs with hsent hmark
  · rw [classifyAck_sentinel (s := s.append b) hsent]
    exact complete_append_flushed 0 s b
  · rw [classifyAck_mark (s := s.append b) hsent hmark]
    exact finishMark_append_flushed s b
  · rw [classifyAck_other (s := s.append b) hsent hmark]
    exact raiseError_append_flushed _ s b

theorem execAckh_of_room {s : State} (hroom : s.cur < s.cfg.bufCap) (b : Byte) :
    execAckh b s = .next (classifyAck b (s.append b)) := by
  rw [execAckh, pushByte_room hroom, andThen_next]

/-- WA is the handler itself (R114). -/
theorem exec_wa {s : State} (hst : s.st = .waitAck) (hroom : s.cur < s.cfg.bufCap) (b : Byte) :
    exec (.wa b) s = execAckh b s := if_pos ⟨overflowing_of_room hroom, hst⟩

/-- WSS.OTHER is the handler itself (R111). -/
theorem exec_wssOther {s : State} {b : Byte} (hst : s.st = .waitStartSlave)
    (hroom : s.cur < s.cfg.bufCap) (hb : b ≠ s.cfg.slaveStart) :
    exec (.wssOther b) s = execAckh b s :=
  if_pos (by simp [selectRow, overflowing_of_room hroom, hst, hb])

/-- Settles O22: with room the handler classifies the appended byte (`classifyAck_append_flushed`), and WA and
WSS.OTHER are the handler. -/
theorem ackHandlerEndsTheExchange : Obligations.AckHandlerEndsTheExchange := by
  intro s b _ hroom
  have hx := execAckh_of_room hroom b
  exact ⟨classifyAck b (s.append b), hx, classifyAck_append_flushed s b,
    (bufAppended_append s b).congr rfl rfl (classifyAck_mem b _),
    fun hst => (exec_wa hst hroom b).trans hx, fun hst hb => (exec_wssOther hst hroom hb).trans hx⟩

theorem awaitsAck_of_room {s : State} {b : Byte} (hroom : s.cur < s.cfg.bufCap)
    (hst : s.st = .waitAck ∨ s.st = .waitStartSlave)
    (hb : s.st = .waitStartSlave → b ≠ s.cfg.slaveStart) : s.awaitsAck b = true := by
  obtain hst | hst := hst
  · simp [State.awaitsAck, overflowing_of_room hroom, hst]
  · simp [State.awaitsAck, overflowing_of_room hroom, hst, hb hst]

/-- Settles O23: each row is selected by its own byte, as R6 keeps the bytes apart, and flushes as its class of
the handler does. -/
theorem ackHandlerRowsComplete : Obligations.AckHandlerRowsComplete := by
  intro s hlegal hroom hst
  obtain ⟨hMS, hMA, hMN, hSA, hSN, hAN, -⟩ := (legal_iff _).mp hlegal
  have hackRow : ackRow s.cfg s.cfg.ack = .ackhAck := if_pos rfl
  have hnakRow : ackRow s.cfg s.cfg.nak = .ackhNak := by simp [ackRow, hAN.symm]
  have hmarkRow : ackRow s.cfg s.cfg.masterStart = .ackhMark := by simp [ackRow, hMA, hMN]
  have hawaits := fun {b} => awaitsAck_of_room (b := b) hroom hst
  refine ⟨?_, ?_, ?_, fun b hack hnak hmark hb => ?_⟩
  · exact ⟨_, if_pos ⟨hawaits fun _ => hSA.symm, hackRow⟩, complete_append_flushed 0 s _,
      complete_append_bytes 0 s _⟩
  · exact ⟨_, if_pos ⟨hawaits fun _ => hSN.symm, hnakRow⟩, complete_append_flushed 0 s _,
      complete_append_bytes 0 s _⟩
  · exact ⟨_, if_pos ⟨hawaits fun _ => hMS, hmarkRow⟩, finishMark_append_flushed s _,
      (bufAppended_append s _).congr rfl rfl (complete_mem _ _)⟩
  · have hrow : ackRow s.cfg b = .ackhOther b := by simp [ackRow, hack, hnak, hmark]
    exact ⟨_, if_pos ⟨hawaits hb, hrow⟩, raiseError_append_flushed _ s b, raiseError_append_bytes _ s b⟩

end Sys2Proof.Machine

/-! ## The moves of the parser (42_parser_slave_ack.md R118, R122, R125) -/

namespace Sys2Proof.Machine

/-! ### How many transcripts were delivered -/

/-- The events of `s` after `old` deliver `n` transcripts. -/
def State.Delivered (old : List Event) (n : Nat) (s : State) : Prop :=
  ∃ es, s.trace = old ++ es ∧ (es.filter Event.isFrameReceived).length = n

theorem State.Delivered.refl (s : State) : s.Delivered s.trace 0 := ⟨[], by simp, rfl⟩

theorem State.Delivered.trans {old : List Event} {m n : Nat} {s t : State} (h : s.Delivered old m)
    (k : t.Delivered s.trace n) : t.Delivered old (m + n) := by
  obtain ⟨es, hs, hm⟩ := h
  obtain ⟨fs, ht, hn⟩ := k
  refine ⟨es ++ fs, ?_, ?_⟩
  · rw [ht, hs, List.append_assoc]
  · rw [List.filter_append, List.length_append, hm, hn]

theorem delivered_emit (s : State) {es : List Event} (h : es.filter Event.isFrameReceived = []) :
    (s.emit es).Delivered s.trace 0 := ⟨es, rfl, by rw [h]; rfl⟩

theorem listenerEvents_received (s : State) (tr : List Byte) :
    (listenerEvents s tr).filter Event.isFrameReceived = [] := by
  unfold listenerEvents
  split_ifs
  · dsimp only
    split
    · rfl
    · rfl
  · rfl

theorem broadcasts_received (order : List Endpoint) (tr : List Byte) :
    (order.map fun e => Event.broadcast e tr).filter Event.isFrameReceived = [] := by
  simp [List.filter_map, Function.comp_def, Event.isFrameReceived]

/-- A delivery holds one `FrameReceived`, whether or not the port is bound (R118). -/
theorem IsDelivery.received {s : State} {tr : List Byte} {es : List Event} (h : IsDelivery s tr es) :
    (es.filter Event.isFrameReceived).length = 1 := by
  unfold IsDelivery at h
  split_ifs at h
  · obtain ⟨order, -, rfl⟩ := h
    rw [List.filter_cons_of_pos rfl, List.filter_append, listenerEvents_received, broadcasts_received]
    rfl
  · rw [h]
    rfl

theorem Flushed.delivered {s t : State} {pre : List Event} {tr : List Byte} {seed : Byte}
    (h : Flushed s t pre tr seed) (hpre : pre.filter Event.isFrameReceived = []) :
    t.Delivered s.trace 1 := by
  obtain ⟨-, es, hes, ht⟩ := h
  refine ⟨pre ++ es, by rw [ht, List.append_assoc], ?_⟩
  rw [List.filter_append, hpre, List.nil_append, hes.received]

/-! ### What a byte can do to an exchange that goes on -/

/-- `t` holds more of the exchange than `s`: bytes were appended, nothing was delivered, and every fallback is
kept. -/
structure State.Extends (s t : State) : Prop where
  silent : t.Delivered s.trace 0
  cur_lt : s.cur < t.cur
  fallback : ∀ k, (t.entry k).fallback = (s.entry k).fallback

/-- What a byte does to a session outside `WaitStart` with room in the buffer: along an edge of the graph (R125),
either the exchange is delivered once and the parser idle, or the session holds more of it. -/
def State.Proceeds (s t : State) : Prop :=
  graphEdge s.st t.st = true ∧
    ((t.st = .waitStart ∧ t.Delivered s.trace 1) ∨ (t.st ≠ .waitStart ∧ s.Extends t))

theorem extends_append (s : State) (b : Byte) : s.Extends (s.append b) where
  silent := .refl s
  cur_lt := Nat.lt_succ_self _
  fallback _ := rfl

section Extends

variable {s u : State} (h : s.Extends u)

include h

theorem State.Extends.append (b : Byte) : s.Extends (u.append b) :=
  ⟨h.silent, Nat.lt_succ_of_lt h.cur_lt, h.fallback⟩

theorem State.Extends.emit {es : List Event} (hes : es.filter Event.isFrameReceived = []) :
    s.Extends (u.emit es) :=
  ⟨h.silent.trans (delivered_emit u hes), h.cur_lt, h.fallback⟩

/-- A poll takes no fallback (R146, R147). -/
theorem State.Extends.polled : s.Extends u.polled := by
  refine ⟨?_, ?_, fun k => ?_⟩
  · rw [polled_frame]
    exact h.silent
  · rw [polled_cur]
    exact h.cur_lt
  · rw [← h.fallback k, State.polled, entry_afterPoll]
    split_ifs
    · rfl
    · rfl

/-- A session that holds more may pass to another busy state, along an edge (R125). -/
theorem State.Extends.proceeds {st : ParserState} {sorg : Nat} (hedge : graphEdge s.st st = true)
    (hst : st ≠ .waitStart) : s.Proceeds { u with st := st, sorg := sorg } :=
  ⟨hedge, .inr ⟨hst, h.silent, h.cur_lt, h.fallback⟩⟩

/-! ### The rules of the parser -/

theorem complete_proceeds (hedge : graphEdge s.st .waitStart = true) (seed : Byte) :
    s.Proceeds (complete seed u) :=
  ⟨hedge, .inl ⟨rfl, h.silent.trans ((complete_flushed seed u).delivered rfl)⟩⟩

theorem raiseError_proceeds (hedge : graphEdge s.st .waitStart = true) (e : ErrorClass) :
    s.Proceeds (raiseError e u) := complete_proceeds (h.emit rfl) hedge 0

theorem ackAndComplete_proceeds (hedge : graphEdge s.st .waitStart = true) :
    Yields s.Proceeds (ackAndComplete u) := by
  refine (pushByte_yields _ _).andThen ?_
  rintro _ ⟨-, rfl⟩
  exact yields_next.mpr (complete_proceeds ((h.emit rfl).append _) hedge 0)

theorem answerPoll_proceeds (hst : s.st = .waitData) (p : List Byte) :
    Yields s.Proceeds (answerPoll p u) := by
  have hsent : s.Extends (sendBytes p u) := h.emit rfl
  refine (pushBytes_yields (fun b v hv => ?_) p hsent).andThen fun t ht => ?_
  · refine (pushByte_yields b v).mono ?_
    rintro _ ⟨-, rfl⟩
    exact hv.append b
  · exact yields_next.mpr (ht.proceeds (by rw [hst]; rfl) nofun)

theorem execDispatch_proceeds (hst : s.st = .waitData) : Yields s.Proceeds (execDispatch u) := by
  have hedge : graphEdge s.st .waitStart = true := by rw [hst]; rfl
  unfold execDispatch
  cases u.dispatchClass with
  | pollAns p => exact answerPoll_proceeds h.polled hst p
  | pollAck => exact ackAndComplete_proceeds h.polled hedge
  | dataAck => exact ackAndComplete_proceeds h hedge
  | pollObs | dataObs =>
    exact yields_next.mpr (h.proceeds (by rw [hst]; rfl) nofun)
  | outOfContract => exact yields_refused _ _

end Extends

section Rules

variable {s : State}

theorem waitDataRules_proceeds (hst : s.st = .waitData) (b : Byte) :
    Yields s.Proceeds (waitDataRules b s) := by
  have hx := extends_append s b
  have hedge : graphEdge s.st .waitStart = true := by rw [hst]; rfl
  refine (pushByte_yields b s).andThen ?_
  rintro _ ⟨-, rfl⟩
  cases (s.append b).dataClass with
  | append => exact yields_next.mpr (hx.proceeds (st := s.st) (by rw [hst]; rfl) (by simp [hst]))
  | badLen | badSum => exact yields_next.mpr (raiseError_proceeds hx hedge _)
  | valid => exact execDispatch_proceeds hx hst

/-- The handler ends the exchange in every class; the rolled-back marker leaves the trace alone. -/
theorem execAckh_proceeds (hedge : graphEdge s.st .waitStart = true) (b : Byte) :
    Yields s.Proceeds (execAckh b s) := by
  have hx := extends_append s b
  refine (pushByte_yields b s).andThen ?_
  rintro _ ⟨-, rfl⟩
  refine yields_next.mpr ?_
  unfold classifyAck
  split_ifs
  · exact complete_proceeds hx hedge 0
  · exact complete_proceeds hx hedge 0
  · exact ⟨hedge, .inl ⟨rfl, (finishMark_append_flushed s b).delivered rfl⟩⟩
  · exact raiseError_proceeds hx hedge _

theorem waitStartSlaveRules_proceeds (hst : s.st = .waitStartSlave) (b : Byte) :
    Yields s.Proceeds (waitStartSlaveRules b s) := by
  refine .ite (fun _ => (pushByte_yields b s).andThen ?_)
    fun _ => execAckh_proceeds (by rw [hst]; rfl) b
  rintro _ ⟨-, rfl⟩
  have hx := extends_append s b
  exact yields_next.mpr (hx.proceeds (by rw [hst]; rfl) nofun)

theorem waitDataSlaveRules_proceeds (hst : s.st = .waitDataSlave) (b : Byte) :
    Yields s.Proceeds (waitDataSlaveRules b s) := by
  refine (pushByte_yields b s).andThen ?_
  rintro _ ⟨-, rfl⟩
  have hx := extends_append s b
  refine yields_next.mpr ?_
  split_ifs
  · exact hx.proceeds (by rw [hst]; rfl) nofun
  · exact hx.proceeds (st := s.st) (by rw [hst]; rfl) (by simp [hst])

/-- R125 outside `WaitStart`, with room in the buffer. -/
theorem parserRules_proceeds (hst : s.st ≠ .waitStart) (b : Byte) :
    Yields s.Proceeds (parserRules b s) := by
  unfold parserRules
  cases hs : s.st with
  | waitStart => exact absurd hs hst
  | waitData => exact waitDataRules_proceeds hs b
  | waitStartSlave => exact waitStartSlaveRules_proceeds hs b
  | waitDataSlave => exact waitDataSlaveRules_proceeds hs b
  | waitAck => exact execAckh_proceeds (by rw [hs]; rfl) b

/-- An idle parser stays idle or starts a frame, and delivers nothing (R91 to R93). -/
theorem waitStartRules_moves (hst : s.st = .waitStart) (b : Byte) :
    graphEdge s.st (waitStartRules b s).st = true ∧ (waitStartRules b s).Delivered s.trace 0 := by
  unfold waitStartRules
  split_ifs
  · exact ⟨by rw [dropDoubled_st, hst]; rfl, .refl s⟩
  · exact ⟨by rw [hst]; rfl, .refl s⟩
  · exact ⟨by rw [slideWindow_st, hst]; rfl, .refl s⟩

end Rules

/-! ### The transition graph (R125) -/

/-- Settles O54, by the full buffer, the idle parser (`waitStartRules_moves`), and the session that proceeds
(`parserRules_proceeds`). -/
theorem parserFollowsTheTransitionGraph : Obligations.ParserFollowsTheTransitionGraph := by
  intro s t b hlegal hx
  obtain ⟨u, hu, ht⟩ := andThen_eq_next.mp hx
  cases ht
  show (if s.overflowing then u.st = .waitStart else graphEdge s.st u.st = true) ∧
    u.Delivered s.trace (if s.st ≠ .waitStart ∧ u.st = .waitStart then 1 else 0)
  cases ho : s.overflowing with
  | true =>
    have hst : s.st ≠ .waitStart := fun hst => by simp [overflowing_of_waitStart hst] at ho
    rw [consumeByte_overflows hlegal ho] at hu
    cases hu
    rw [if_pos rfl, if_pos ⟨hst, rfl⟩]
    exact ⟨rfl, (raiseError_flushed _ s).delivered rfl⟩
  | false =>
    rw [if_neg Bool.false_ne_true]
    by_cases hst : s.st = .waitStart
    · rw [consumeByte_waitStart hst] at hu
      cases hu
      rw [if_neg fun h => h.1 hst]
      exact waitStartRules_moves hst b
    · rw [consumeByte_of_room ho] at hu
      obtain ⟨hedge, ⟨hidle, hone⟩ | ⟨hbusy, hmore⟩⟩ := parserRules_proceeds hst b u hu
      · rw [if_pos ⟨hst, hidle⟩]
        exact ⟨hedge, hone⟩
      · rw [if_neg fun h => hbusy h.2]
        exact ⟨hedge, hmore.silent⟩

/-! ### The way back to idle (R122) -/

section Idle

variable {s : State}

theorem State.ProvidersInContract.of_fallback {t : State} (h : s.ProvidersInContract)
    (ht : ∀ k, (t.entry k).fallback = (s.entry k).fallback) : t.ProvidersInContract :=
  fun k pid n hk => h k pid n ((ht k).symm.trans hk)

/-- Under the invariant a byte brings a busy parser to idle, or the session holds more than before. -/
theorem consumeByte_idles_or_extends (h : s.Inv) (hst : s.st ≠ .waitStart) (b : Byte) :
    Yields (fun t => t.st = .waitStart ∨ s.Extends t) (consumeByte b s) := by
  cases ho : s.overflowing with
  | true =>
    rw [consumeByte_overflows h.legal ho]
    exact yields_next.mpr (.inl rfl)
  | false =>
    rw [consumeByte_of_room ho]
    exact (parserRules_proceeds hst b).mono fun t ⟨_, ht⟩ => ht.imp And.left And.right

/-- The room left in the buffer bounds how long the parser stays busy: every byte takes some of it, and the one
that finds none overflows. -/
theorem feed_reaches_idle {bs : List Byte} (h : s.Inv) (hp : s.ProvidersInContract)
    (hlen : s.cfg.bufCap < s.cur + bs.length) :
    ∃ k t, k ≤ bs.length ∧ feed (bs.take k) s = .next t ∧ t.st = .waitStart := by
  induction bs generalizing s with
  | nil => exact absurd h.curRange (not_le.mpr hlen)
  | cons b bs ih =>
    by_cases hst : s.st = .waitStart
    · exact ⟨0, s, Nat.zero_le _, rfl, hst⟩
    · obtain ⟨t, ht⟩ := consumeByte_completes h hp b
      have hfeed : ∀ k, feed ((b :: bs).take (k + 1)) s = feed (bs.take k) t := fun k => by
        rw [List.take_succ_cons, feed, ht, andThen_next]
      obtain hidle | hmore := consumeByte_idles_or_extends h hst b t ht
      · exact ⟨1, t, Nat.succ_le_succ (Nat.zero_le _), hfeed 0, hidle⟩
      · have hcap : t.cfg.bufCap < t.cur + bs.length := by
          have hcfg : t.cfg = s.cfg := (consumeByte_frame ht).cfg
          have hlt := hmore.cur_lt
          rw [List.length_cons] at hlen
          rw [hcfg]
          omega
        obtain ⟨k, v, hk, hv, hidle⟩ :=
          ih (consumeByte_inv h b t ht) (hp.of_fallback hmore.fallback) hcap
        exact ⟨k + 1, v, Nat.succ_le_succ hk, (hfeed k).trans hv, hidle⟩

end Idle

/-- Settles O58: `BUF_CAP + 1` bytes are more than any room the buffer has left (`feed_reaches_idle`). -/
theorem parserReturnsToIdle : Obligations.ParserReturnsToIdle := fun _ _ h hp hlen =>
  feed_reaches_idle h hp (by omega)

end Sys2Proof.Machine

/-! ## The passive triple (42_parser_slave_ack.md R113, R124) -/

namespace Sys2Proof.Machine

/-! ### A whole slave frame (R110 to R113) -/

section SlaveBytes

variable {s : State} {b : Byte} (hst : s.st = .waitDataSlave) (hroom : s.cur < s.cfg.bufCap)

include hst hroom

theorem consumeByte_waitDataSlave : consumeByte b s = waitDataSlaveRules b s := by
  rw [consumeByte_of_room (overflowing_of_room hroom), parserRules, hst]

/-- A byte that leaves the slave frame incomplete is appended (R112). -/
theorem feed_cons_slave (h : (s.append b).slaveDone = false) (bs : List Byte) :
    feed (b :: bs) s = feed bs (s.append b) := by
  rw [feed, consumeByte_waitDataSlave hst hroom, waitDataSlaveRules, pushByte_room hroom, andThen_next, h]
  rfl

/-- The byte that completes the slave frame is appended, whatever it is (R113). -/
theorem consumeByte_slaveDone (h : (s.append b).slaveDone = true) :
    consumeByte b s = .next { s.append b with st := .waitAck } := by
  rw [consumeByte_waitDataSlave hst hroom, waitDataSlaveRules, pushByte_room hroom, andThen_next, if_pos h]

end SlaveBytes

/-- `N`, the declared length of the slave frame, where its length byte is held (R112). -/
def State.slaveLen (s : State) : Nat := (s.readBuf (s.sorg + 2)).toNat

theorem slaveLenWith_of_held {s : State} (h : s.sorg + 2 < s.cur) (b : Byte) :
    s.slaveLenWith b = s.slaveLen := by
  rw [State.slaveLenWith, if_neg (by omega), State.slaveLen]

theorem slaveLen_append {s : State} (h : s.sorg + 2 < s.cur) (b : Byte) :
    (s.append b).slaveLen = s.slaveLen := by
  rw [State.slaveLen, append_sorg, readBuf_append_of_lt h, State.slaveLen]

theorem slaveLen_append_lengthByte {s : State} (h : s.cur = s.sorg + 2) (b : Byte) :
    (s.append b).slaveLen = b.toNat := by
  rw [State.slaveLen, append_sorg, readBuf_append, if_pos h.symm]

/-- After its length byte, the bytes of a slave frame up to the last data byte are appended. -/
theorem feed_slaveData {bs : List Byte} {s : State} (hst : s.st = .waitDataSlave)
    (hheld : s.sorg + 2 < s.cur) (hlen : s.cur + bs.length < s.sorg + s.slaveLen + 4)
    (hroom : s.cur + bs.length ≤ s.cfg.bufCap) : feed bs s = .next (appendAll bs s) := by
  induction bs generalizing s with
  | nil => rfl
  | cons b bs ih =>
    rw [List.length_cons] at hlen hroom
    have hb : (s.append b).slaveDone = false :=
      slaveDone_append_eq_false (.inr (by rw [slaveLenWith_of_held hheld]; omega))
    rw [feed_cons_slave hst (by omega) hb, appendAll]
    refine ih hst (Nat.lt_succ_of_lt hheld) ?_ ?_
    · rw [slaveLen_append hheld, append_cur, append_sorg]
      omega
    · rw [append_cur, append_cfg]
      omega

/-- The length byte of a slave frame declares any length up to 255 (R62). -/
theorem toNat_slaveLengthByte {data : List Byte} (h : data.length ≤ 255) :
    (BitVec.ofNat 8 data.length).toNat = data.length := Nat.mod_eq_of_lt (Nat.lt_succ_of_le h)

/-- The command, length byte and data of a slave frame are appended: before its length byte no byte ends it, and
after it only the checksum is lacking. -/
theorem feed_slaveBody {s : State} (sc : Byte) {data : List Byte} (hst : s.st = .waitDataSlave)
    (hcur : s.cur = s.sorg + 1) (hdata : data.length ≤ 255)
    (hroom : s.cur + 2 + data.length ≤ s.cfg.bufCap) :
    feed (slaveBody sc data) s = .next (appendAll (slaveBody sc data) s) := by
  have hn := toNat_slaveLengthByte hdata
  have hcmd : (s.append sc).slaveDone = false := slaveDone_append_eq_false (.inl (by omega))
  have hcur' : (s.append sc).cur = (s.append sc).sorg + 2 := by rw [append_cur, hcur, append_sorg]
  have hlen : ((s.append sc).append (BitVec.ofNat 8 data.length)).slaveDone = false :=
    slaveDone_append_eq_false (.inr (by omega))
  rw [slaveBody, feed_cons_slave hst (by omega) hcmd,
    feed_cons_slave (s := s.append sc) hst (by rw [append_cur, append_cfg]; omega) hlen]
  refine feed_slaveData hst ?_ ?_ ?_
  · rw [append_cur, hcur', append_sorg _ (BitVec.ofNat 8 data.length)]
    omega
  · rw [slaveLen_append_lengthByte hcur', hn, append_cur, hcur', append_sorg _ (BitVec.ofNat 8 data.length)]
    omega
  · rw [append_cur, append_cur]
    simp only [append_cfg]
    omega

/-- A session that waits for the slave, once the slave frame that ends in `k` is held whole. -/
def State.slaveHeld (s : State) (sc : Byte) (data : List Byte) (k : Byte) : State :=
  { (appendAll (slaveBody sc data) (startSlaveFrame s)).append k with st := .waitAck }

theorem slaveHeld_frame (s : State) (sc : Byte) (data : List Byte) (k : Byte) :
    s.slaveHeld sc data k =
      { s with
        mem := (s.slaveHeld sc data k).mem, st := .waitAck, cur := s.cur + 4 + data.length,
        sorg := s.cur } := by
  have hcur : s.cur + 4 + data.length = s.cur + 1 + (slaveBody sc data).length + 1 := by
    simp only [slaveBody, List.length_cons]
    omega
  have hbody := appendAll_frame (slaveBody sc data) (startSlaveFrame s)
  rw [State.slaveHeld, append_frame, hbody, hcur]
  rfl

theorem transcript_startSlaveFrame (s : State) :
    (startSlaveFrame s).transcript = s.transcript ++ [s.cfg.slaveStart] := transcript_append s _

theorem transcript_slaveHeld (s : State) (sc : Byte) (data : List Byte) (k : Byte) :
    (s.slaveHeld sc data k).transcript =
      s.transcript ++ (s.cfg.slaveStart :: (slaveBody sc data ++ [k])) := by
  have htr : (s.slaveHeld sc data k).transcript =
      ((appendAll (slaveBody sc data) (startSlaveFrame s)).append k).transcript := rfl
  rw [htr, transcript_append, transcript_appendAll, transcript_startSlaveFrame]
  simp

/-- The checksum is the byte that completes the slave frame: its length byte stands second after the marker. -/
theorem slaveDone_slaveBody (s : State) (sc : Byte) {data : List Byte} (hdata : data.length ≤ 255)
    (k : Byte) :
    ((appendAll (slaveBody sc data) (startSlaveFrame s)).append k).slaveDone = true := by
  have hn := toNat_slaveLengthByte hdata
  have hbody : (slaveBody sc data).length = data.length + 2 := rfl
  have hcur : (appendAll (slaveBody sc data) (startSlaveFrame s)).cur = s.cur + 1 + (data.length + 2) := by
    rw [appendAll_frame, startSlaveFrame_cur, hbody]
  have hsorg : (appendAll (slaveBody sc data) (startSlaveFrame s)).sorg = s.cur := by
    rw [appendAll_frame, startSlaveFrame_sorg]
  have hlen : (appendAll (slaveBody sc data) (startSlaveFrame s)).slaveLen = data.length := by
    rw [State.slaveLen, hsorg, appendAll_bytes _ _ (s.cur + 2), startSlaveFrame_cur, if_pos (by omega),
      Nat.add_sub_add_left]
    exact hn
  rw [slaveDone_append, slaveLenWith_of_held (by omega), hcur, hsorg, hlen]
  omega

/-- The marker starts the slave frame, its body is appended, and any byte `k` after it completes it. -/
theorem feed_slaveFrame {s : State} (sc : Byte) {data : List Byte} (k : Byte)
    (hst : s.st = .waitStartSlave) (hdata : data.length ≤ 255)
    (hroom : s.cur + 4 + data.length ≤ s.cfg.bufCap) :
    feed (s.cfg.slaveStart :: (slaveBody sc data ++ [k])) s = .next (s.slaveHeld sc data k) := by
  have hfirst : s.cur < s.cfg.bufCap := by omega
  have hstart : consumeByte s.cfg.slaveStart s = .next (startSlaveFrame s) :=
    (exec_of_selectRow (selectRow_wssStart hst hfirst)).symm.trans (exec_wssStart hst hfirst)
  have hbody := feed_slaveBody (s := startSlaveFrame s) sc rfl rfl hdata (by
    rw [startSlaveFrame_cur, startSlaveFrame_cfg]
    omega)
  have hlast : consumeByte k (appendAll (slaveBody sc data) (startSlaveFrame s)) =
      .next (s.slaveHeld sc data k) := by
    refine consumeByte_slaveDone ?_ ?_ (slaveDone_slaveBody s sc hdata k)
    · rw [appendAll_frame, startSlaveFrame_st]
    · rw [appendAll_frame]
      simp only [startSlaveFrame_cur, startSlaveFrame_cfg, slaveBody, List.length_cons]
      omega
  rw [feed, hstart, andThen_next, feed_append, hbody, andThen_next, feed_singleton, hlast]

/-- R6 gives the buffer room for two frames, so for one. -/
theorem maxFrame_le_bufCap {c : Config} (h : c.legal = true) : maxFrame ≤ c.bufCap := by
  obtain ⟨-, -, -, -, -, -, -, -, hcap, -⟩ := (legal_iff c).mp h
  exact le_trans (by decide) hcap

/-! ### A poll that is only observed, and the whole exchange (R103, R124) -/

/-- An idle parser once a poll to a foreign address has passed: its six bytes are held. -/
def State.pollObserved (s : State) (a : Addr) (cmd : Byte) : State :=
  { (s.captured a cmd []).append (csum s.cfg (masterBody a cmd [])) with st := .waitStartSlave }

theorem pollObserved_frame (s : State) (a : Addr) (cmd : Byte) :
    s.pollObserved a cmd =
      { s with
        mem := (s.pollObserved a cmd).mem, st := .waitStartSlave, cur := 6, prev := addrHi a } := by
  rw [State.pollObserved, append_frame]
  generalize ((s.captured a cmd []).append _).mem = m
  rw [captured_frame]
  rfl

theorem transcript_pollObserved (s : State) (a : Addr) (cmd : Byte) :
    (s.pollObserved a cmd).transcript = mkMaster s.cfg a cmd [] := by
  have htr : (s.pollObserved a cmd).transcript =
      ((s.captured a cmd []).append (csum s.cfg (masterBody a cmd []))).transcript := rfl
  rw [htr, transcript_append, transcript_captured, mkMaster]

theorem feed_foreignPoll {s : State} {a : Addr} (cmd : Byte) (hcap : maxFrame ≤ s.cfg.bufCap)
    (hst : s.st = .waitStart) (hp : s.prev ≠ s.cfg.masterStart) (ha : addrHi a ≠ s.cfg.masterStart)
    (hforeign : a ∉ s.ackset) : feed (mkMaster s.cfg a cmd []) s = .next (s.pollObserved a cmd) := by
  obtain ⟨haddr, -, hlen⟩ :=
    frameFields_of_transcript (Nat.zero_le _) (transcript_pollObserved s a cmd)
  have hackset : (s.pollObserved a cmd).ackset = s.ackset := by rw [pollObserved_frame]
  have hclass : ((s.captured a cmd []).append (csum s.cfg (masterBody a cmd []))).dispatchClass =
      .pollObs :=
    dispatchClass_pollObs (s := s.pollObserved a cmd) (by rwa [haddr, hackset]) hlen
  rw [feed_mkMaster cmd hcap hst hp ha (Nat.zero_le _), execDispatch, hclass]
  rfl

/-- An ack in `WaitAck` ends the exchange with itself in the transcript (R116). -/
theorem consumeByte_ack {s : State} (hst : s.st = .waitAck) (hroom : s.cur < s.cfg.bufCap) :
    consumeByte s.cfg.ack s = .next (complete 0 (s.append s.cfg.ack)) := by
  rw [consumeByte_of_room (overflowing_of_room hroom), parserRules, hst]
  exact (execAckh_of_room hroom _).trans
    (congrArg _ (classifyAck_sentinel (s := s.append s.cfg.ack) (.inl rfl)))

/-- An idle parser once a foreign poll and the slave's answer have passed (R124, but for the ack). -/
def State.pairHeld (s : State) (a : Addr) (cmd sc : Byte) (data : List Byte) (k : Byte) : State :=
  (s.pollObserved a cmd).slaveHeld sc data k

section Pair

variable (s : State) (a : Addr) (cmd sc : Byte) (data : List Byte) (k : Byte)

theorem pairHeld_frame :
    s.pairHeld a cmd sc data k =
      { s with
        mem := (s.pairHeld a cmd sc data k).mem, st := .waitAck, cur := 10 + data.length, sorg := 6,
        prev := addrHi a } := by
  rw [State.pairHeld, slaveHeld_frame]
  generalize ((s.pollObserved a cmd).slaveHeld sc data k).mem = m
  rw [pollObserved_frame]

theorem transcript_pairHeld :
    (s.pairHeld a cmd sc data k).transcript =
      mkMaster s.cfg a cmd [] ++ (s.cfg.slaveStart :: (slaveBody sc data ++ [k])) := by
  have hcfg : (s.pollObserved a cmd).cfg = s.cfg := by rw [pollObserved_frame]
  rw [State.pairHeld, transcript_slaveHeld, transcript_pollObserved, hcfg]

variable {s a data}

theorem feed_pair (hcap : maxFrame ≤ s.cfg.bufCap) (hst : s.st = .waitStart)
    (hp : s.prev ≠ s.cfg.masterStart) (ha : addrHi a ≠ s.cfg.masterStart) (hforeign : a ∉ s.ackset)
    (hdata : data.length ≤ 255) (hfit : 10 + data.length ≤ s.cfg.bufCap) :
    feed (mkMaster s.cfg a cmd [] ++ (s.cfg.slaveStart :: (slaveBody sc data ++ [k]))) s =
      .next (s.pairHeld a cmd sc data k) := by
  have hcfg : (s.pollObserved a cmd).cfg = s.cfg := by rw [pollObserved_frame]
  have hcur : (s.pollObserved a cmd).cur = 6 := by rw [pollObserved_frame]
  have hslave := feed_slaveFrame (s := s.pollObserved a cmd) sc k rfl hdata (by rw [hcur, hcfg]; omega)
  rw [feed_append, feed_foreignPoll cmd hcap hst hp ha hforeign, andThen_next, ← hcfg, hslave,
    State.pairHeld]

end Pair

/-- Settles O60: the poll and the slave frame are held whole (`feed_pair`), and the ack flushes them
(`consumeByte_ack`); what was held before touched neither the trace nor the tables (`pairHeld_frame`). -/
theorem passiveTripleIsDeliveredOnce : Obligations.PassiveTripleIsDeliveredOnce := by
  intro s a cmd sc k data hlegal hst _ hp ha hforeign hdata hfit
  have hcap := maxFrame_le_bufCap hlegal
  have hframe : [s.cfg.slaveStart, sc, BitVec.ofNat 8 data.length] ++ data ++ [k] =
    s.cfg.slaveStart :: (slaveBody sc data ++ [k]) := rfl
  have hw := pairHeld_frame s a cmd sc data k
  have hcfg : (s.pairHeld a cmd sc data k).cfg = s.cfg := by rw [hw]
  have hcur : (s.pairHeld a cmd sc data k).cur = 10 + data.length := by rw [hw]
  have hack := consumeByte_ack (s := s.pairHeld a cmd sc data k) rfl (by rw [hcur, hcfg]; omega)
  have hflush := complete_append_flushed 0 (s.pairHeld a cmd sc data k) s.cfg.ack
  rw [transcript_pairHeld] at hflush
  rw [hcfg] at hack
  rw [hframe, feed_append, feed_pair cmd sc k hcap hst hp ha hforeign hdata (by omega), andThen_next,
    feed_singleton, hack]
  refine ⟨_, rfl, hflush.since (old := []) ?_ ?_⟩
  · rw [hw]
  · rw [hw, List.append_nil]

end Sys2Proof.Machine

/-! ## Transmission (43_transmit.md): the three send operations, and when a received byte makes the block send -/

namespace Sys2Proof.Machine

/-! ### The send operations (R130 to R132) -/

theorem exec_sendbytes (s : State) {p : List Byte} (h : p ≠ []) :
    exec (.sendbytes p) s = .next (sendBytes p s) := if_neg h

/-- Settles O25: all three are `sendBytes`, with the payload given (`exec_sendbytes`) or the constant. -/
theorem transmissionIsSixEvents : Obligations.TransmissionIsSixEvents :=
  fun s _ => ⟨exec_sendbytes s, rfl, rfl⟩

/-! ### What was sent since -/

/-- The events of `s` after `old` drive the transport by `tx`, in order, and by nothing else. -/
def State.Transmitted (old tx : List Event) (s : State) : Prop :=
  ∃ es, s.trace = old ++ es ∧ es.filter Event.isTransport = tx

theorem State.Transmitted.refl (s : State) : s.Transmitted s.trace [] := ⟨[], by simp, rfl⟩

theorem listenerEvents_cases (s : State) (tr : List Byte) :
    listenerEvents s tr = [] ∨ ∃ lid a c p, listenerEvents s tr = [.listener lid a c p] := by
  unfold listenerEvents
  split_ifs
  · dsimp only
    split
    · exact .inr ⟨_, _, _, _, rfl⟩
    · exact .inl rfl
  · exact .inl rfl

/-- A delivery reaches callbacks, listeners and targets, never the transport (R118, R152, R156). -/
theorem IsDelivery.transport {s : State} {tr : List Byte} {es : List Event} (h : IsDelivery s tr es) :
    es.filter Event.isTransport = [] := by
  unfold IsDelivery at h
  split_ifs at h
  · obtain ⟨order, -, rfl⟩ := h
    have hl : (listenerEvents s tr).filter Event.isTransport = [] := by
      obtain hl | ⟨_, _, _, _, hl⟩ := listenerEvents_cases s tr
      · rw [hl]
        rfl
      · rw [hl]
        rfl
    have hb : (order.map fun e => Event.broadcast e tr).filter Event.isTransport = [] := by
      simp [List.filter_map, Function.comp_def, Event.isTransport]
    rw [List.filter_cons_of_neg Bool.false_ne_true, List.filter_append, hl, hb, List.nil_append]
  · rw [h]
    rfl

section Transmitted

variable {s : State} {old tx : List Event}

/-- The first transmission since `old` (R130). -/
theorem State.Transmitted.sendBytes (h : s.Transmitted old []) (p : List Byte) :
    (sendBytes p s).Transmitted old (sendEvents s.cfg p) := by
  obtain ⟨pre, ht, hpre⟩ := h
  refine ⟨pre ++ sendEvents s.cfg p, by rw [sendBytes_trace, ht, List.append_assoc], ?_⟩
  rw [List.filter_append, hpre]
  rfl

theorem State.Transmitted.polled (h : s.Transmitted old tx) : s.polled.Transmitted old tx := by
  rw [polled_frame]
  exact h

/-- A flush sends nothing itself. -/
theorem State.Transmitted.flushed {t : State} {pre : List Event} {tr : List Byte} {seed : Byte}
    (h : s.Transmitted old tx) (hf : Flushed s t pre tr seed)
    (hpre : pre.filter Event.isTransport = []) : t.Transmitted old tx := by
  obtain ⟨es, ht, rfl⟩ := h
  obtain ⟨-, fs, hfs, htr⟩ := hf
  refine ⟨es ++ (pre ++ fs), by simp only [htr, ht, List.append_assoc], ?_⟩
  simp only [List.filter_append, hpre, hfs.transport, List.append_nil]

theorem State.Transmitted.raiseError (h : s.Transmitted old tx) (e : ErrorClass) :
    (raiseError e s).Transmitted old tx := h.flushed (raiseError_flushed e s) rfl

/-! ### The rules that send nothing -/

theorem State.Transmitted.waitStartRules (h : s.Transmitted old tx) (b : Byte) :
    (waitStartRules b s).Transmitted old tx := by
  unfold Machine.waitStartRules
  split_ifs
  · exact h
  · exact h
  · exact h

theorem execAckh_transmitted (h : s.Transmitted old tx) (b : Byte) :
    Yields (·.Transmitted old tx) (execAckh b s) := by
  refine (pushByte_yields b s).andThen ?_
  rintro _ ⟨-, rfl⟩
  have hf := classifyAck_append_flushed s b
  split_ifs at hf
  · exact yields_next.mpr (h.flushed hf rfl)
  · exact yields_next.mpr (h.flushed hf rfl)
  · exact yields_next.mpr (h.flushed hf rfl)

theorem waitStartSlaveRules_transmitted (h : s.Transmitted old tx) (b : Byte) :
    Yields (·.Transmitted old tx) (waitStartSlaveRules b s) := by
  refine .ite (fun _ => (pushByte_yields b s).andThen ?_) fun _ => execAckh_transmitted h b
  rintro _ ⟨-, rfl⟩
  exact yields_next.mpr h

theorem waitDataSlaveRules_transmitted (h : s.Transmitted old tx) (b : Byte) :
    Yields (·.Transmitted old tx) (waitDataSlaveRules b s) := by
  refine (pushByte_yields b s).andThen ?_
  rintro _ ⟨-, rfl⟩
  refine yields_next.mpr ?_
  split_ifs
  · exact h
  · exact h

/-! ### The rules that send (R100 to R102) -/

theorem answerPoll_transmitted (h : s.Transmitted old []) (p : List Byte) :
    Yields (·.Transmitted old (sendEvents s.cfg p)) (answerPoll p s) := by
  refine (pushBytes_yields (fun b u hu => ?_) p (h.sendBytes p)).andThen fun _ ht => yields_next.mpr ht
  refine (pushByte_yields b u).mono ?_
  rintro _ ⟨-, rfl⟩
  exact hu

theorem ackAndComplete_transmitted (h : s.Transmitted old []) :
    Yields (·.Transmitted old (sendEvents s.cfg [s.cfg.ack])) (ackAndComplete s) := by
  refine (pushByte_yields _ _).andThen ?_
  rintro _ ⟨-, rfl⟩
  have hsent : ((sendBytes [s.cfg.ack] s).append s.cfg.ack).Transmitted old
    (sendEvents s.cfg [s.cfg.ack]) := h.sendBytes _
  exact yields_next.mpr (hsent.flushed (complete_flushed 0 _) rfl)

/-! ### A received byte (R134) -/

/-- Every rule of R99 but the two that only observe is about an impersonated address. -/
theorem frameAddr_mem_ackset_of_dispatchClass (hpoll : s.dispatchClass ≠ .pollObs)
    (hdata : s.dispatchClass ≠ .dataObs) : s.frameAddr ∈ s.ackset := by
  by_contra ha
  obtain hn | hn := Nat.eq_zero_or_pos s.frameLen
  · exact hpoll (dispatchClass_pollObs ha hn)
  · exact hdata (dispatchClass_dataObs ha hn)

/-- `t` was reached from a state with configuration `c` and trace `old` with nothing sent, or, where `may` holds,
with one transmission. -/
def State.TransmitsOnlyIf (may : Prop) (c : Config) (old : List Event) (t : State) : Prop :=
  t.Transmitted old [] ∨ (may ∧ ∃ p, t.Transmitted old (sendEvents c p))

theorem execDispatch_transmits (h : s.Transmitted old []) :
    Yields (State.TransmitsOnlyIf (s.frameAddr ∈ s.ackset) s.cfg old) (execDispatch s) := by
  have hmem := frameAddr_mem_ackset_of_dispatchClass (s := s)
  unfold execDispatch
  cases hd : s.dispatchClass with
  | pollAns p =>
    have ha := hmem (by simp [hd]) (by simp [hd])
    rw [← polled_cfg s]
    exact (answerPoll_transmitted h.polled p).mono fun _ ht => .inr ⟨ha, p, ht⟩
  | pollAck =>
    have ha := hmem (by simp [hd]) (by simp [hd])
    rw [← polled_cfg s]
    exact (ackAndComplete_transmitted h.polled).mono fun _ ht => .inr ⟨ha, _, ht⟩
  | dataAck =>
    have ha := hmem (by simp [hd]) (by simp [hd])
    exact (ackAndComplete_transmitted h).mono fun _ ht => .inr ⟨ha, _, ht⟩
  | pollObs | dataObs => exact yields_next.mpr (.inl h)
  | outOfContract => exact yields_refused _ _

/-- The byte after which a frame is valid is the one the frame lacked (converse of `State.FrameEnds.dataClass`). -/
theorem State.InMasterFrame.frameEnds (h : s.InMasterFrame) {b : Byte} (hst : s.st = .waitData)
    (hroom : s.cur < s.cfg.bufCap) (hd : (s.append b).dataClass = .valid) : s.FrameEnds b := by
  obtain ⟨-, hend⟩ := holdsMasterFrame_of_valid h hd
  rw [append_cur] at hend
  rw [frameLen_append (by omega)] at hend
  have hcur : s.cur = 5 + s.frameLen := by omega
  rw [dataClass_append_last hcur] at hd
  split_ifs at hd with hsum
  exact ⟨hst, hroom, hcur, hsum⟩

theorem waitDataRules_transmits (hf : s.InMasterFrame) (hst : s.st = .waitData) (b : Byte) :
    Yields (State.TransmitsOnlyIf (s.FrameEnds b ∧ s.frameAddr ∈ s.ackset) s.cfg s.trace)
      (waitDataRules b s) := by
  have h : (s.append b).Transmitted s.trace [] := .refl s
  refine (pushByte_yields b s).andThen ?_
  rintro _ ⟨hroom, rfl⟩
  cases hd : (s.append b).dataClass with
  | append => exact yields_next.mpr (.inl h)
  | badLen | badSum => exact yields_next.mpr (.inl (h.raiseError _))
  | valid =>
    have hend := hf.frameEnds hst hroom hd
    refine (execDispatch_transmits h).mono fun t ht => ht.imp_right fun ⟨ha, hp⟩ => ⟨⟨hend, ?_⟩, hp⟩
    rwa [frameAddr_append hend.five_le_cur] at ha

/-- The case on `st`: only `WaitData` reaches DISPATCH (R90). -/
theorem parserRules_transmits (hi : s.Inv) (b : Byte) :
    Yields (State.TransmitsOnlyIf (s.FrameEnds b ∧ s.frameAddr ∈ s.ackset) s.cfg s.trace)
      (parserRules b s) := by
  have h := State.Transmitted.refl s
  unfold parserRules
  cases hst : s.st with
  | waitStart => exact yields_next.mpr (.inl (h.waitStartRules b))
  | waitData => exact waitDataRules_transmits (hi.data hst) hst b
  | waitStartSlave => exact (waitStartSlaveRules_transmitted h b).mono fun _ => .inl
  | waitDataSlave => exact (waitDataSlaveRules_transmitted h b).mono fun _ => .inl
  | waitAck => exact (execAckh_transmitted h b).mono fun _ => .inl

theorem consumeByte_transmits (hi : s.Inv) (b : Byte) :
    Yields (State.TransmitsOnlyIf (s.FrameEnds b ∧ s.frameAddr ∈ s.ackset) s.cfg s.trace)
      (consumeByte b s) := by
  cases ho : s.overflowing with
  | true =>
    rw [consumeByte_of_full ho]
    exact yields_next.mpr (.inl (((State.Transmitted.refl s).raiseError _).waitStartRules b))
  | false =>
    rw [consumeByte_of_room ho]
    exact parserRules_transmits hi b

end Transmitted

/-- Settles O55: of all rules only those DISPATCH chooses for an impersonated address send, once, and only the
last byte of a valid frame reaches DISPATCH (`consumeByte_transmits`). -/
theorem transmitsOnlyWhenImpersonating : Obligations.TransmitsOnlyWhenImpersonating := by
  intro s t b hi hx
  obtain ⟨u, hu, ht⟩ := andThen_eq_next.mp hx
  cases ht
  obtain ⟨es, htr, hes⟩ | ⟨⟨hend, ha⟩, p, es, htr, hes⟩ := consumeByte_transmits hi b u hu
  · exact ⟨es, htr, .inl hes⟩
  · exact ⟨es, htr, .inr ⟨hend, ha, p, hes⟩⟩

end Sys2Proof.Machine

/-! ## The multiplexer (44_multiplexer.md): the host's tables, the token poll, the fan-out and the targets -/

namespace Sys2Proof.Machine

/-! ### The acknowledge set and the listeners (R141, R150) -/

/-- Settles O35: membership after an insertion and after an erasure. -/
theorem setackEditsTheAcknowledgeSet : Obligations.SetackEditsTheAcknowledgeSet := by
  refine fun s a en => ⟨_, rfl, rfl, fun x => ?_⟩
  cases en with
  | true => exact mem_setInsert
  | false => exact mem_setErase

/-- Settles O40: a read of the listener table after a write. -/
theorem addlsnReplacesTheListener : Obligations.AddlsnReplacesTheListener := fun s a c lid =>
  ⟨_, rfl, rfl, fun k => tableGet_tableSet keyCode s.lsn ⟨a, c⟩ k lid⟩

/-! ### The request entries: queues and fallbacks (R142 to R145) -/

/-- `t` is `s` with the entry of key `k` edited by `f` and `v` returned, and nothing else changed. -/
def State.EntryEdited (s t : State) (k : Key) (f : ReqEntry → ReqEntry) (v : Answer) : Prop :=
  t = { s with req := t.req, answer := v } ∧ ∀ j, t.entry j = if j = k then f (s.entry j) else s.entry j

theorem entryEdited_setEntry (s : State) (k : Key) (f : ReqEntry → ReqEntry) (v : Answer) :
    s.EntryEdited ((s.setEntry k (f (s.entry k))).reply v) k f v := by
  refine ⟨rfl, fun j => (entry_setEntry s k j _).trans ?_⟩
  by_cases hj : j = k
  · rw [if_pos hj, if_pos hj, hj]
  · rw [if_neg hj, if_neg hj]

/-- The payloads that ENQ and SETCONST refuse. -/
theorem payloadOk_eq_false {p : List Byte} (h : p.length = 0 ∨ maxResp < p.length) :
    payloadOk p = false := by
  rw [Bool.eq_false_iff, ne_eq, payloadOk_iff]
  omega

/-- ENQ as an edit of the entry (R142). -/
def ReqEntry.pushed (depth : Nat) (p : List Byte) (e : ReqEntry) : ReqEntry :=
  { e with queue := enqueue depth e.queue p }

theorem exec_enq (s : State) (a : Addr) (tok : Byte) {p : List Byte} (h : payloadOk p = true) :
    ∃ t, exec (.enq a tok p) s = .next t ∧
      s.EntryEdited t ⟨a, tok⟩ (ReqEntry.pushed s.cfg.queueDepth p) .done :=
  ⟨_, if_pos h, entryEdited_setEntry s ⟨a, tok⟩ (ReqEntry.pushed s.cfg.queueDepth p) .done⟩

theorem exec_enq_refused (s : State) (a : Addr) (tok : Byte) {p : List Byte}
    (h : payloadOk p = false) : exec (.enq a tok p) s = .next (s.reply .refused) :=
  if_neg (by simp [h])

/-- Settles O36: `exec_enq` and `exec_enq_refused`; the queue is `enqueue`, which drops its front. -/
theorem enqPushesAndDropsTheOldest : Obligations.EnqPushesAndDropsTheOldest := by
  refine fun s a tok p => ⟨fun h => exec_enq_refused s a tok (payloadOk_eq_false h), fun h1 h128 => ?_⟩
  obtain ⟨t, ht, hframe, hentry⟩ := exec_enq s a tok (payloadOk_iff.mpr ⟨h1, h128⟩)
  refine ⟨t, ht, hframe, fun k => ?_⟩
  rw [hentry k, ReqEntry.pushed, enqueue, List.drop_one]

/-- A push onto a queue within its depth keeps the last `depth` of its payloads. -/
theorem enqueue_eq_drop {depth : Nat} {q : List (List Byte)} (hd : 1 ≤ depth) (hq : q.length ≤ depth)
    (p : List Byte) : enqueue depth q p = (q ++ [p]).drop (q.length + 1 - depth) := by
  unfold enqueue
  split_ifs with hfull
  · have h1 : q.length + 1 - depth = 1 := by omega
    rw [h1, List.drop_append_of_le_length (by omega)]
  · have h0 : q.length + 1 - depth = 0 := by omega
    rw [h0, List.drop_zero]

/-- What a push drops is not among the last `depth` of the queue and all that is pushed. -/
theorem drop_enqueue_append {depth : Nat} {q : List (List Byte)} (hd : 1 ≤ depth)
    (hq : q.length ≤ depth) (p : List Byte) (ps : List (List Byte)) :
    (enqueue depth q p ++ ps).drop ((enqueue depth q p).length + ps.length - depth) =
      (q ++ p :: ps).drop (q.length + (p :: ps).length - depth) := by
  have hle : q.length + 1 - depth ≤ (q ++ [p]).length := by simp
  rw [enqueue_eq_drop hd hq, ← List.drop_append_of_le_length hle, ← List.append_cons, List.drop_drop]
  congr 1
  simp only [List.length_drop, List.length_append, List.length_cons, List.length_nil]
  omega

/-- Settles O37, by induction on the payloads: each push keeps the queue within its depth and drops none of the
last `QUEUE_DEPTH` (`drop_enqueue_append`). -/
theorem queueKeepsTheMostRecent : Obligations.QueueKeepsTheMostRecent := by
  intro s a tok ps hd hq hps
  induction ps generalizing s with
  | nil =>
    refine ⟨s, rfl, ?_, fun _ _ => rfl⟩
    rw [List.append_nil, List.length_nil, Nat.add_zero, Nat.sub_eq_zero_of_le hq, List.drop_zero]
  | cons p ps ih =>
    obtain ⟨u, hu, hframe, hentry⟩ := exec_enq s a tok (payloadOk_iff.mpr (hps p List.mem_cons_self))
    have hcfg : u.cfg = s.cfg := by rw [hframe]
    have hqueue : (u.entry ⟨a, tok⟩).queue =
        enqueue s.cfg.queueDepth (s.entry ⟨a, tok⟩).queue p := by
      rw [hentry, if_pos rfl, ReqEntry.pushed]
    obtain ⟨t, ht, htqueue, hother⟩ := ih u (hcfg ▸ hd)
      (by rw [hqueue, hcfg]; exact length_enqueue_le hd hq p)
      fun x hx => hps x (List.mem_cons_of_mem _ hx)
    refine ⟨t, by rw [List.map_cons, runAll, hu, andThen_next, ht], ?_, fun k hk => ?_⟩
    · rw [htqueue, hqueue, hcfg, drop_enqueue_append hd hq]
    · rw [hother k hk, hentry k, if_neg hk]

/-- Settles O38: both commands edit the fallback of one entry (`entryEdited_setEntry`). -/
theorem fallbackIsReplaced : Obligations.FallbackIsReplaced := fun s a tok pid p =>
  ⟨⟨_, rfl, entryEdited_setEntry s ⟨a, tok⟩ (fun e => { e with fallback := .provider pid }) .done⟩,
    fun h => if_neg (by simp [payloadOk_eq_false h]),
    fun h1 h128 => ⟨_, if_pos (payloadOk_iff.mpr ⟨h1, h128⟩),
      entryEdited_setEntry s ⟨a, tok⟩ (fun e => { e with fallback := .const p }) .done⟩⟩

/-! ### The token poll (R146 to R148) -/

theorem judgeProvider_outOfContract_iff {o : Option (List Byte)} :
    judgeProvider o = .outOfContract ↔ ∃ p, o = some p ∧ maxResp < p.length := by
  cases o with
  | none => simp [judgeProvider]
  | some p =>
    by_cases hnil : p = []
    · simp [judgeProvider, hnil]
    · simp [judgeProvider, hnil]

section Poll

variable {s : State} {a : Addr} {c : Byte} (htok : s.tokenBound = true)

include htok

theorem exec_tokenpoll_queued {p : List Byte} {q : List (List Byte)}
    (hq : (s.entry ⟨a, c⟩).queue = p :: q) : exec (.tokenpoll a c) s =
      .next ((s.setEntry ⟨a, c⟩ { s.entry ⟨a, c⟩ with queue := q }).reply (.optBytes (some p))) := by
  simp [exec, execTokenpoll, pollAnswer, afterPoll, htok, hq]

variable (hq : (s.entry ⟨a, c⟩).queue = [])

include hq

theorem exec_tokenpoll_none (hf : (s.entry ⟨a, c⟩).fallback = .none) :
    exec (.tokenpoll a c) s = .next (s.reply (.optBytes none)) := by
  simp [exec, execTokenpoll, pollAnswer, afterPoll, htok, hq, hf]

theorem exec_tokenpoll_const {p : List Byte} (hf : (s.entry ⟨a, c⟩).fallback = .const p) :
    exec (.tokenpoll a c) s = .next (s.reply (.optBytes (some p))) := by
  simp [exec, execTokenpoll, pollAnswer, afterPoll, htok, hq, hf]

theorem pollAnswer_provider {pid : ProviderId} (hf : (s.entry ⟨a, c⟩).fallback = .provider pid) :
    pollAnswer s a c = judgeProvider (Config.freeProvider pid a c s.provCalls) := by
  simp [pollAnswer, htok, hq, hf]

theorem afterPoll_provider {pid : ProviderId} (hf : (s.entry ⟨a, c⟩).fallback = .provider pid) :
    afterPoll s a c = { s with provCalls := s.provCalls + 1 } := by
  simp [afterPoll, htok, hq, hf]

end Poll

/-- Settles O39: the queue's front, else the case of the fallback, and for a provider the case of its free answer
(`judgeProvider`). -/
theorem tokenPollTriesQueueThenFallback : Obligations.TokenPollTriesQueueThenFallback := by
  refine fun s a c htok => ⟨fun p q hq => ?_, fun hq => ⟨?_, fun p hf => ?_, fun pid hf => ?_⟩⟩
  · exact ⟨_, exec_tokenpoll_queued htok hq,
      entryEdited_setEntry s ⟨a, c⟩ (fun e => { e with queue := q }) (.optBytes (some p))⟩
  · exact exec_tokenpoll_none htok hq
  · exact exec_tokenpoll_const htok hq hf
  · rw [exec, execTokenpoll, pollAnswer_provider htok hq hf, afterPoll_provider htok hq hf]
    cases Config.freeProvider pid a c s.provCalls with
    | none => rfl
    | some p =>
      have hmax : maxResp = 128 := rfl
      by_cases hnil : p = []
      · subst hnil
        rfl
      · have hlen : p.length ≠ 0 := mt List.length_eq_zero_iff.mp hnil
        by_cases hover : 128 < p.length
        · simp [judgeProvider, hnil, hmax, hover]
        · simp [judgeProvider, hnil, hmax, hover, State.reply]

/-! ### A provider out of contract (R148) -/

theorem andThen_next_eq_refused {o : Result} {f : State → State} {r : Refusal} :
    andThen o (fun t => .next (f t)) = .refused r ↔ o = .refused r := by
  cases o <;> simp

theorem RefusesIn.ne_refused {o : Result} (h : RefusesIn ∅ o) (r : Refusal) : o ≠ .refused r := h r

/-- Of the rules DISPATCH chooses from, only the poll of a provider out of contract is refused. -/
theorem execDispatch_refused_iff {s : State} :
    execDispatch s = .refused .providerOutOfContract ↔ s.dispatchClass = .outOfContract := by
  unfold execDispatch
  cases s.dispatchClass with
  | pollAns p => simpa [runDispatch] using (answerPoll_refusesIn ∅ p _).ne_refused _
  | pollAck | dataAck => simpa [runDispatch] using (ackAndComplete_refusesIn ∅ _).ne_refused _
  | pollObs | dataObs => simp [runDispatch]
  | outOfContract => simp [runDispatch]

theorem dispatchClass_outOfContract_iff {s : State} (ha : s.frameAddr ∈ s.ackset)
    (hn : s.frameLen = 0) :
    s.dispatchClass = .outOfContract ↔ pollAnswer s s.frameAddr s.frameCmd = .outOfContract := by
  rw [State.dispatchClass, if_pos ha, if_pos hn]
  cases pollAnswer s s.frameAddr s.frameCmd with
  | supplied p =>
    by_cases hp : p = []
    · simp [hp]
    · simp [hp]
  | nothing | outOfContract => simp

theorem exec_consume_refused_iff {s : State} {b : Byte} (h : s.FrameEnds b) :
    exec (.consume b) s = .refused .providerOutOfContract ↔ s.dispatchClass = .outOfContract := by
  rw [exec, execConsume, andThen_next_eq_refused, ← exec_selectRow, exec_selectRow_frameEnds h,
    execDispatch_refused_iff, dispatchClass_append h.five_le_cur]

/-- Where the decode table selects another row, WD.POLL.ANS is refused for that reason instead (assumption 12). -/
theorem exec_wdPollAns_refused_iff {s : State} {b : Byte} (h : s.FrameEnds b) :
    exec (.wdPollAns b) s = .refused .providerOutOfContract ↔ s.dispatchClass = .outOfContract := by
  refine ⟨fun hx => ?_, fun hd => exec_dispatchRow h hd⟩
  have hrow : selectRow s b = .wdPollAns b := by
    by_contra hne
    rw [exec, execWdPollAns, whenSelected, if_neg hne] at hx
    cases hx
  rwa [← hrow, exec_selectRow_frameEnds h, execDispatch_refused_iff,
    dispatchClass_append h.five_le_cur] at hx

/-- Settles O16: both refuse exactly where DISPATCH finds the provider out of contract. -/
theorem overlongProviderAnswerIsRefused : Obligations.OverlongProviderAnswerIsRefused := by
  intro s b pid h ha hn htok hq hf
  have hclass : s.dispatchClass = .outOfContract ↔
      ∃ p, Config.freeProvider pid s.frameAddr s.frameCmd s.provCalls = some p ∧ maxResp < p.length := by
    rw [dispatchClass_outOfContract_iff ha hn, pollAnswer_provider htok hq hf,
      judgeProvider_outOfContract_iff]
  exact ⟨(exec_consume_refused_iff h).trans hclass, (exec_wdPollAns_refused_iff h).trans hclass⟩

/-! ### De-duplication (R155) -/

section Dedup

variable (c : Config)

theorem dedupBytes_pair (p : List Byte) :
    dedupBytes c (c.masterStart :: c.masterStart :: p) = c.masterStart :: dedupBytes c p :=
  if_pos ⟨rfl, rfl⟩

theorem dedupBytes_cons_of_ne {x : Byte} (h : x ≠ c.masterStart) (p : List Byte) :
    dedupBytes c (x :: p) = x :: dedupBytes c p := by
  cases p with
  | nil => rfl
  | cons y p => exact if_neg fun hxy => h hxy.1

theorem dedupBytes_lone_marker {x : Byte} (h : x ≠ c.masterStart) (p : List Byte) :
    dedupBytes c (c.masterStart :: x :: p) = c.masterStart :: x :: dedupBytes c p := by
  rw [← dedupBytes_cons_of_ne c h]
  exact if_neg fun hmx => h hmx.2

theorem dedupBytes_stuff (p : List Byte) : dedupBytes c (stuff c p) = p := by
  induction p with
  | nil => rfl
  | cons x p ih =>
    unfold stuff
    split_ifs with hx
    · rw [dedupBytes_pair, ih, hx]
    · rw [dedupBytes_cons_of_ne c hx, ih]

theorem dedupBytes_markers : ∀ k, dedupBytes c (List.replicate k c.masterStart) =
    List.replicate ((k + 1) / 2) c.masterStart
  | 0 => rfl
  | 1 => rfl
  | k + 2 => by
    have hhalf : (k + 2 + 1) / 2 = (k + 1) / 2 + 1 := by omega
    rw [List.replicate_succ, List.replicate_succ, dedupBytes_pair, dedupBytes_markers k, hhalf,
      List.replicate_succ]

end Dedup

/-- Settles O32: the equations of `dedupBytes` on a leading pair, a lone marker and any other byte, and by
induction on doubled bytes and runs of markers. -/
theorem dedupCollapsesMarkerPairs : Obligations.DedupCollapsesMarkerPairs := fun s =>
  ⟨dedupBytes s.cfg, fun _ => rfl, dedupBytes_stuff s.cfg, dedupBytes_markers s.cfg,
    dedupBytes_pair s.cfg,
    fun _ p h => ⟨dedupBytes_cons_of_ne s.cfg h p, dedupBytes_lone_marker s.cfg h p⟩⟩

/-! ### The listener (R153, R154) -/

theorem byteAt_append_left {xs : List Byte} {i : Nat} (h : i < xs.length) (ys : List Byte) :
    byteAt (xs ++ ys) i = byteAt xs i := by
  simp [byteAt, List.getElem?_append_left h]

theorem slice_append_left {xs : List Byte} {j : Nat} (h : j ≤ xs.length) (ys : List Byte) (i : Nat) :
    slice (xs ++ ys) i j = slice xs i j := by
  rw [slice, slice, List.take_append_of_le_length h]

/-- Only a transcript that begins with a valid frame has a listener event. -/
theorem listenerEvents_of_noValidFrame {s : State} {tr : List Byte}
    (h : ∀ f rest, tr = f ++ rest → masterFrameValid s.cfg f = false) : listenerEvents s tr = [] := by
  have hinvalid := h (slice tr 0 (frameEnd tr)) (tr.drop (frameEnd tr))
    (List.take_append_drop _ tr).symm
  exact if_neg fun hcond => by simp [hinvalid] at hcond

theorem listenerEvents_mkMaster (s : State) {a : Addr} {data : List Byte} (cmd : Byte)
    (rest : List Byte) (ha : addrHi a ≠ s.cfg.masterStart) (hdata : data.length ≤ maxData) :
    listenerEvents s (mkMaster s.cfg a cmd data ++ rest) =
      (tableGet s.lsn ⟨a, cmd⟩).toList.map fun lid => .listener lid a cmd (dedupBytes s.cfg data) := by
  have hlen := length_mkMaster s.cfg a cmd data
  have hbyte : ∀ i < 6, byteAt (mkMaster s.cfg a cmd data ++ rest) i =
      byteAt (mkMaster s.cfg a cmd data) i := fun i hi => byteAt_append_left (by omega) rest
  have hn : (BitVec.ofNat 8 data.length).toNat = data.length :=
    Nat.mod_eq_of_lt (lt_of_le_of_lt hdata (by decide))
  have hend : frameEnd (mkMaster s.cfg a cmd data ++ rest) = 6 + data.length := by
    rw [frameEnd, hbyte 4 (by decide), byteAt_mkMaster_four, hn]
  have hframe : slice (mkMaster s.cfg a cmd data ++ rest) 0 (6 + data.length) =
      mkMaster s.cfg a cmd data := by
    rw [slice, ← hlen, List.take_left, List.drop_zero]
  have hpayload : slice (mkMaster s.cfg a cmd data ++ rest) 5 (6 + data.length - 1) = data := by
    have hlast : 6 + data.length - 1 = 5 + data.length := by omega
    rw [hlast, slice_append_left (by omega), slice_mkMaster_data]
  rw [listenerEvents, hend, hframe, hpayload, if_pos]
  · simp only [hbyte 1 (by decide), hbyte 2 (by decide), hbyte 3 (by decide), byteAt_mkMaster_one,
      byteAt_mkMaster_two, byteAt_mkMaster_three, addrOf_addrHi_addrLo]
    cases tableGet s.lsn ⟨a, cmd⟩ with
    | some lid => rfl
    | none => rfl
  · have hle : 6 + data.length ≤ (mkMaster s.cfg a cmd data ++ rest).length := by
      rw [List.length_append, hlen]
      exact Nat.le_add_right _ _
    refine ⟨by omega, ?_, hle, masterFrameValid_mkMaster _ a cmd data hdata ha⟩
    rwa [hbyte 4 (by decide), byteAt_mkMaster_four, hn]

/-- Settles O33: the two cases of `listenerEvents`. -/
theorem listenerHearsValidFramesOnly : Obligations.ListenerHearsValidFramesOnly := by
  refine fun s tr => ⟨listenerEvents s tr, rfl, ?_, listenerEvents_of_noValidFrame⟩
  rintro a cmd data rest rfl ha hdata
  rw [listenerEvents_mkMaster s cmd rest ha hdata]
  cases tableGet s.lsn ⟨a, cmd⟩ with
  | some lid => rfl
  | none => rfl

/-! ### The broadcast (R152, R156) -/

/-- Settles O34: whatever the free choices are, the order is one of the targets (`broadcastOrder_perm`). -/
theorem broadcastReachesEveryTargetOnce : Obligations.BroadcastReachesEveryTargetOnce := fun s tr =>
  ⟨⟨broadcastOrder s, _, broadcastOrder_perm s, rfl⟩, listenerDispatch tr s, fanOut tr s, rfl, rfl, rfl⟩

/-! ### The targets (R160 to R162) -/

/-- A read of a filtered map: the pair found, if the filter keeps it. -/
theorem tableGet_filter {κ α : Type} [DecidableEq κ] {code : κ → Nat} {t : List (κ × α)}
    (h : TableWf code t) (keep : κ × α → Bool) (k : κ) :
    tableGet (t.filter keep) k = (tableGet t k).filter fun v => keep (k, v) := by
  induction t with
  | nil => rfl
  | cons x t ih =>
    obtain ⟨k', v⟩ := x
    obtain ⟨hlt, ht⟩ := List.pairwise_cons.mp h
    rw [List.filter_cons]
    by_cases hk : k = k'
    · subst hk
      have hnone : tableGet t k = none := keyless_iff.mpr fun hmem => by
        obtain ⟨y, hy, rfl⟩ := List.mem_map.mp hmem
        exact lt_irrefl _ (hlt y hy)
      cases hkeep : keep (k, v) with
      | true => simp [tableGet, Option.filter, hkeep]
      | false => simp [tableGet, Option.filter, hkeep, ih ht, hnone]
    · cases hkeep : keep (k', v) with
      | true => simp [tableGet, hk, ih ht]
      | false => simp [tableGet, hk, ih ht]

theorem tableGet_seen (now : Nat) (es : List Endpoint) (t : List (Endpoint × Nat)) (x : Endpoint) :
    tableGet (es.foldl (fun t e => tableSet id t e now) t) x =
      if x ∈ es then some now else tableGet t x := by
  induction es generalizing t with
  | nil => simp
  | cons e es ih =>
    rw [List.foldl_cons, ih, tableGet_tableSet]
    by_cases hmem : x ∈ es
    · simp [hmem]
    · simp [hmem]

theorem tableGet_sweepTargets (c : Config) (now : Nat) {t : List (Endpoint × Nat)} (h : TableWf id t)
    (x : Endpoint) :
    tableGet (sweepTargets c now t) x =
      if x ∈ c.staticTargets then some now
      else (tableGet t x).filter fun seen => decide (now - seen ≤ c.targetTimeout) := by
  rw [sweepTargets, tableGet_filter (seen_wf now c.staticTargets h), tableGet_seen]
  by_cases hx : x ∈ c.staticTargets
  · simp [hx]
  · simp [hx]

/-- Settles O41: a read after a write, and `tableGet_sweepTargets`. -/
theorem targetsAreRefreshedAndSwept : Obligations.TargetsAreRefreshedAndSwept := by
  refine fun s e now => ⟨⟨_, rfl, rfl, fun x => tableGet_tableSet id s.tgt e x now⟩,
    fun hwf => ⟨_, rfl, rfl, fun x => ?_⟩⟩
  refine (tableGet_sweepTargets s.cfg now hwf x).trans ?_
  cases tableGet s.tgt x with
  | none => rfl
  | some seen =>
    by_cases hidle : now - seen ≤ s.cfg.targetTimeout
    · rw [Option.filter_some_pos (by simpa using hidle)]
      simp only [Nat.not_lt.mpr hidle, if_false]
    · rw [Option.filter_some_neg (by simpa using hidle)]
      simp only [Nat.not_le.mp hidle, if_true]

end Sys2Proof.Machine

/-! ## The host interface (45_host_interface.md): the connection bit, the port bindings, and the driving loop -/

namespace Sys2Proof.Machine

/-! ### The connection and progress bits (R173 to R176) -/

theorem inprog_eq (s : State) : s.inprog = decide (s.st ≠ .waitStart ∨ s.rxq ≠ []) := by
  rw [Bool.eq_iff_iff, decide_eq_true_iff]
  simp [State.inprog, State.byteAvailable]

/-- Settles O42: each command replies in one state update, and INPROG's bit is `inprog_eq`. -/
theorem connectionAndProgressBits : Obligations.ConnectionAndProgressBits := fun s =>
  ⟨rfl, rfl, rfl, congrArg (fun v => Host.Outcome.next (s.reply (.bit v))) (inprog_eq s)⟩

/-! ### Unbound ports (R105, R118) -/

theorem deliverTranscript_unbound {s : State} (h : s.frameBound = false) (tr : List Byte) :
    deliverTranscript tr s = s.emit [.frameReceived tr] := by
  rw [deliverTranscript, h, if_neg Bool.false_ne_true]

theorem pollAnswer_unbound {s : State} (h : s.tokenBound = false) (a : Addr) (c : Byte) :
    pollAnswer s a c = .nothing := by
  rw [pollAnswer, h, if_neg Bool.false_ne_true]

theorem afterPoll_unbound {s : State} (h : s.tokenBound = false) (a : Addr) (c : Byte) :
    afterPoll s a c = s := by
  rw [afterPoll, h, if_neg Bool.false_ne_true]

theorem exec_complete_unbound {s : State} (h : s.frameBound = false) (seed : Byte) :
    exec (.complete seed) s = .next ((s.emit [.frameReceived s.transcript]).idle seed) := by
  rw [exec, execComplete, complete, deliverTranscript_unbound h]

theorem exec_tokenpoll_unbound {s : State} (h : s.tokenBound = false) (a : Addr) (c : Byte) :
    exec (.tokenpoll a c) s = .next (s.reply (.optBytes none)) := by
  rw [exec, execTokenpoll, pollAnswer_unbound h, afterPoll_unbound h]

/-- Settles O43: the bindings are updates, and the unbound ports are `exec_complete_unbound` and
`exec_tokenpoll_unbound`. -/
theorem portsAreBoundToTheMultiplexer : Obligations.PortsAreBoundToTheMultiplexer := fun _ _ =>
  ⟨rfl, rfl, exec_complete_unbound, exec_tokenpoll_unbound⟩

/-! ### What does not read the receive stream or the answer -/

/-- The same state over another receive stream and another answer. -/
def State.withPort (s : State) (q : List Byte) (v : Answer) : State := { s with rxq := q, answer := v }

/-- `t` is `s` over receive stream `q` and answer `v`. -/
def OnPort (q : List Byte) (v : Answer) (s t : State) : Prop := t = s.withPort q v

theorem deliverTranscript_withPort (tr : List Byte) (s : State) (q : List Byte) (v : Answer) :
    deliverTranscript tr (s.withPort q v) = (deliverTranscript tr s).withPort q v := by
  have hb : (s.withPort q v).frameBound = s.frameBound := rfl
  unfold deliverTranscript
  rw [hb]
  split_ifs <;> rfl

theorem complete_withPort (seed : Byte) (s : State) (q : List Byte) (v : Answer) :
    complete seed (s.withPort q v) = (complete seed s).withPort q v :=
  congrArg (State.idle · seed) (deliverTranscript_withPort s.transcript s q v)

theorem raiseError_withPort (e : ErrorClass) (s : State) (q : List Byte) (v : Answer) :
    raiseError e (s.withPort q v) = (raiseError e s).withPort q v :=
  complete_withPort 0 (s.emit [.log e]) q v

theorem afterPoll_withPort (s : State) (a : Addr) (c : Byte) (q : List Byte) (v : Answer) :
    afterPoll (s.withPort q v) a c = (afterPoll s a c).withPort q v := by
  have hb : (s.withPort q v).tokenBound = s.tokenBound := rfl
  have he : (s.withPort q v).entry ⟨a, c⟩ = s.entry ⟨a, c⟩ := rfl
  unfold afterPoll
  rw [hb, he]
  split
  · split
    · rfl
    · split <;> rfl
  · rfl

theorem polled_withPort (s : State) (q : List Byte) (v : Answer) :
    (s.withPort q v).polled = s.polled.withPort q v := afterPoll_withPort s s.frameAddr s.frameCmd q v

theorem waitStartRules_withPort (b : Byte) (s : State) (q : List Byte) (v : Answer) :
    waitStartRules b (s.withPort q v) = (waitStartRules b s).withPort q v := by
  have hc : (s.withPort q v).cfg = s.cfg := rfl
  have hp : (s.withPort q v).prev = s.prev := rfl
  unfold waitStartRules
  rw [hc, hp]
  split_ifs <;> rfl

theorem classifyAck_withPort (b : Byte) (s : State) (q : List Byte) (v : Answer) :
    classifyAck b (s.withPort q v) = (classifyAck b s).withPort q v := by
  have hc : (s.withPort q v).cfg = s.cfg := rfl
  unfold classifyAck
  rw [hc]
  split_ifs
  · exact complete_withPort 0 s q v
  · exact complete_withPort 0 s q v
  · exact complete_withPort _ { s with cur := s.cur - 1 } q v
  · exact raiseError_withPort _ s q v

theorem overflowGuard_withPort (s : State) (q : List Byte) (v : Answer) :
    overflowGuard (s.withPort q v) = (overflowGuard s).withPort q v := by
  have ho : (s.withPort q v).overflowing = s.overflowing := rfl
  unfold overflowGuard
  rw [ho]
  split_ifs
  · exact raiseError_withPort _ s q v
  · rfl

section Port

variable (q : List Byte) (v : Answer) (s : State)

theorem pushByte_onPort (b : Byte) :
    OutcomeRel (OnPort q v) (pushByte b s) (pushByte b (s.withPort q v)) :=
  outcomeRel_ite rfl (outcomeRel_next rfl)

theorem pushBytes_onPort (bs : List Byte) :
    OutcomeRel (OnPort q v) (pushBytes bs s) (pushBytes bs (s.withPort q v)) := by
  induction bs generalizing s with
  | nil => exact outcomeRel_next rfl
  | cons b bs ih =>
    refine outcomeRel_andThen (pushByte_onPort q v s b) ?_
    rintro u _ rfl
    exact ih u

theorem answerPoll_onPort (p : List Byte) :
    OutcomeRel (OnPort q v) (answerPoll p s) (answerPoll p (s.withPort q v)) := by
  refine outcomeRel_andThen (pushBytes_onPort q v (sendBytes p s) p) ?_
  rintro u _ rfl
  exact outcomeRel_next rfl

theorem ackAndComplete_onPort :
    OutcomeRel (OnPort q v) (ackAndComplete s) (ackAndComplete (s.withPort q v)) := by
  refine outcomeRel_andThen (pushByte_onPort q v (sendBytes [s.cfg.ack] s) s.cfg.ack) ?_
  rintro u _ rfl
  exact outcomeRel_next (complete_withPort 0 u q v)

theorem execDispatch_onPort :
    OutcomeRel (OnPort q v) (execDispatch s) (execDispatch (s.withPort q v)) := by
  have hd : (s.withPort q v).dispatchClass = s.dispatchClass := rfl
  unfold execDispatch
  rw [hd]
  cases s.dispatchClass with
  | pollAns p =>
    rw [runDispatch, runDispatch, polled_withPort]
    exact answerPoll_onPort q v s.polled p
  | pollAck =>
    rw [runDispatch, runDispatch, polled_withPort]
    exact ackAndComplete_onPort q v s.polled
  | dataAck => exact ackAndComplete_onPort q v s
  | pollObs | dataObs => exact outcomeRel_next rfl
  | outOfContract => rfl

theorem execAckh_onPort (b : Byte) :
    OutcomeRel (OnPort q v) (execAckh b s) (execAckh b (s.withPort q v)) := by
  refine outcomeRel_andThen (pushByte_onPort q v s b) ?_
  rintro u _ rfl
  exact outcomeRel_next (classifyAck_withPort b u q v)

theorem waitDataRules_onPort (b : Byte) :
    OutcomeRel (OnPort q v) (waitDataRules b s) (waitDataRules b (s.withPort q v)) := by
  refine outcomeRel_andThen (pushByte_onPort q v s b) ?_
  rintro u _ rfl
  have hd : (u.withPort q v).dataClass = u.dataClass := rfl
  rw [hd]
  cases u.dataClass with
  | append => exact outcomeRel_next rfl
  | badLen | badSum => exact outcomeRel_next (raiseError_withPort _ u q v)
  | valid => exact execDispatch_onPort q v u

theorem waitStartSlaveRules_onPort (b : Byte) :
    OutcomeRel (OnPort q v) (waitStartSlaveRules b s) (waitStartSlaveRules b (s.withPort q v)) := by
  refine outcomeRel_ite (outcomeRel_andThen (pushByte_onPort q v s b) ?_) (execAckh_onPort q v s b)
  rintro u _ rfl
  exact outcomeRel_next rfl

theorem waitDataSlaveRules_onPort (b : Byte) :
    OutcomeRel (OnPort q v) (waitDataSlaveRules b s) (waitDataSlaveRules b (s.withPort q v)) := by
  refine outcomeRel_andThen (pushByte_onPort q v s b) ?_
  rintro u _ rfl
  have hd : (u.withPort q v).slaveDone = u.slaveDone := rfl
  rw [hd]
  split_ifs
  · exact outcomeRel_next rfl
  · exact outcomeRel_next rfl

theorem parserRules_onPort (b : Byte) :
    OutcomeRel (OnPort q v) (parserRules b s) (parserRules b (s.withPort q v)) := by
  have hst : (s.withPort q v).st = s.st := rfl
  unfold parserRules
  rw [hst]
  cases s.st with
  | waitStart => exact outcomeRel_next (waitStartRules_withPort b s q v)
  | waitData => exact waitDataRules_onPort q v s b
  | waitStartSlave => exact waitStartSlaveRules_onPort q v s b
  | waitDataSlave => exact waitDataSlaveRules_onPort q v s b
  | waitAck => exact execAckh_onPort q v s b

/-- A received byte looks neither at what waits behind it nor at the last answer. -/
theorem consumeByte_onPort (b : Byte) :
    OutcomeRel (OnPort q v) (consumeByte b s) (consumeByte b (s.withPort q v)) := by
  rw [consumeByte, consumeByte, overflowGuard_withPort]
  exact parserRules_onPort q v (overflowGuard s) b

end Port

/-- Outcomes related by `OnPort` are one outcome, moved to the other stream and answer. -/
theorem eq_of_onPort {q : List Byte} {v : Answer} {o o' : Result} (h : OutcomeRel (OnPort q v) o o') :
    o' = andThen o fun t => .next (t.withPort q v) := by
  cases o with
  | next s =>
    cases o' with
    | next t => exact congrArg Host.Outcome.next h
    | fault | refused => exact h.elim
  | fault e =>
    cases o' with
    | fault => exact congrArg Host.Outcome.fault (Eq.symm h)
    | next | refused => exact h.elim
  | refused e =>
    cases o' with
    | refused => exact congrArg Host.Outcome.refused (Eq.symm h)
    | next | fault => exact h.elim

/-- CONSUME replaces the answer, and leaves the stream it was given. -/
theorem exec_consume_withPort (b : Byte) (s : State) (q : List Byte) (v : Answer) :
    exec (.consume b) (s.withPort q v) =
      andThen (consumeByte b s) fun t => .next (t.withPort q .done) := by
  rw [exec, execConsume, eq_of_onPort (consumeByte_onPort q v s b), andThen_assoc]
  rfl

/-! ### LOOP as a run of CONSUME (R172) -/

theorem exec_loop_disconnected {s : State} (h : s.connected = false) :
    exec .loop s = .next (s.reply .done) := by
  rw [exec, execLoop, h, if_neg Bool.false_ne_true, andThen_next]

theorem exec_loop_connected {s : State} (h : s.connected = true) :
    exec .loop s = andThen (drain s.rxq s) fun t => .next (t.reply .done) := by
  rw [exec, execLoop, if_pos h]

/-- It makes no difference whether the waiting bytes leave the stream one by one, as in `drain`, or all before the
first CONSUME; and what each CONSUME answers, LOOP's own answer replaces. -/
theorem drain_eq_runAll_consume (bs : List Byte) (s : State) (v : Answer) :
    (andThen (drain bs s) fun t => .next (t.reply .done)) =
      andThen (runAll (bs.map .consume) (s.withPort [] v)) fun t => .next (t.reply .done) := by
  induction bs generalizing s v with
  | nil => rfl
  | cons b bs ih =>
    have hconsume : exec (.consume b) (s.withPort [] v) =
        andThen (consumeByte b { s with rxq := bs }) fun t => .next (t.withPort [] .done) :=
      exec_consume_withPort b { s with rxq := bs } [] v
    rw [List.map_cons, drain, runAll, hconsume, andThen_assoc, andThen_assoc, andThen_assoc]
    exact congrArg (andThen _) (funext fun t => ih t .done)

/-! ### What a received byte does to the request table (R147, R202) -/

theorem Flushed.req {s t : State} {pre : List Event} {tr : List Byte} {seed : Byte}
    (h : Flushed s t pre tr seed) : t.req = s.req := by rw [h.1]

theorem complete_req (seed : Byte) (s : State) : (complete seed s).req = s.req :=
  (complete_flushed seed s).req

theorem raiseError_req (e : ErrorClass) (s : State) : (raiseError e s).req = s.req :=
  (raiseError_flushed e s).req

theorem waitStartRules_req (b : Byte) (s : State) : (waitStartRules b s).req = s.req := by
  unfold waitStartRules
  split_ifs <;> rfl

theorem classifyAck_req (b : Byte) (s : State) : (classifyAck b s).req = s.req := by
  unfold classifyAck
  split_ifs
  · exact complete_req 0 s
  · exact complete_req 0 s
  · exact complete_req _ _
  · exact raiseError_req _ s

theorem pushByte_req (b : Byte) {r : List (Key × ReqEntry)} {s : State} (h : s.req = r) :
    Yields (·.req = r) (pushByte b s) :=
  (pushByte_yields b s).mono fun t ⟨_, ht⟩ => by rw [ht, append_req, h]

theorem answerPoll_req (p : List Byte) (s : State) : Yields (·.req = s.req) (answerPoll p s) :=
  (pushBytes_yields (fun b _ => pushByte_req b) p (s := sendBytes p s) rfl).andThen
    fun _ ht => yields_next.mpr ht

theorem ackAndComplete_req (s : State) : Yields (·.req = s.req) (ackAndComplete s) :=
  (pushByte_req s.cfg.ack (s := sendBytes [s.cfg.ack] s) rfl).andThen
    fun t ht => yields_next.mpr ((complete_req 0 t).trans ht)

theorem execAckh_req (b : Byte) (s : State) : Yields (·.req = s.req) (execAckh b s) :=
  (pushByte_req b rfl).andThen fun t ht => yields_next.mpr ((classifyAck_req b t).trans ht)

/-- The request table of `s`, or what the poll for the frame in its buffer leaves of it. -/
def State.ReqPolled (s t : State) : Prop := t.req = s.req ∨ t.req = s.polled.req

theorem execDispatch_req (s : State) : Yields s.ReqPolled (execDispatch s) := by
  unfold execDispatch
  cases s.dispatchClass with
  | pollAns p => exact (answerPoll_req p s.polled).mono fun _ => .inr
  | pollAck => exact (ackAndComplete_req s.polled).mono fun _ => .inr
  | dataAck => exact (ackAndComplete_req s).mono fun _ => .inl
  | pollObs | dataObs => exact yields_next.mpr (.inl rfl)
  | outOfContract => exact yields_refused _ _

theorem waitDataRules_req (b : Byte) (s : State) : Yields s.ReqPolled (waitDataRules b s) := by
  refine (pushByte_yields b s).andThen ?_
  rintro _ ⟨-, rfl⟩
  cases hd : (s.append b).dataClass with
  | append => exact yields_next.mpr (.inl rfl)
  | badLen | badSum => exact yields_next.mpr (.inl (raiseError_req _ (s.append b)))
  | valid =>
    obtain ⟨-, -, hend, -⟩ := of_dataClass_valid hd
    have h5 : 5 ≤ s.cur := by
      rw [append_cur] at hend
      omega
    refine (execDispatch_req (s.append b)).mono fun t ht => ?_
    rwa [State.ReqPolled, polled_append h5, append_req, append_req] at ht

theorem waitStartSlaveRules_req (b : Byte) (s : State) :
    Yields (·.req = s.req) (waitStartSlaveRules b s) :=
  .ite (fun _ => (pushByte_req b rfl).andThen fun _ ht => yields_next.mpr ht) fun _ => execAckh_req b s

theorem waitDataSlaveRules_req (b : Byte) (s : State) :
    Yields (·.req = s.req) (waitDataSlaveRules b s) := by
  refine (pushByte_req b rfl).andThen fun t ht => yields_next.mpr ?_
  split_ifs
  · exact ht
  · exact ht

theorem parserRules_req (b : Byte) (s : State) : Yields s.ReqPolled (parserRules b s) := by
  unfold parserRules
  cases s.st with
  | waitStart => exact yields_next.mpr (.inl (waitStartRules_req b s))
  | waitData => exact waitDataRules_req b s
  | waitStartSlave => exact (waitStartSlaveRules_req b s).mono fun _ => .inl
  | waitDataSlave => exact (waitDataSlaveRules_req b s).mono fun _ => .inl
  | waitAck => exact (execAckh_req b s).mono fun _ => .inl

/-- A received byte leaves the request table, but for the poll of the frame it ends. -/
theorem consumeByte_req (b : Byte) (s : State) : Yields s.ReqPolled (consumeByte b s) := by
  cases ho : s.overflowing with
  | true =>
    rw [consumeByte_of_full ho]
    exact yields_next.mpr (.inl ((waitStartRules_req b _).trans (raiseError_req _ s)))
  | false =>
    rw [consumeByte_of_room ho]
    exact parserRules_req b s

theorem State.ReqPolled.fallback {s t : State} (h : s.ReqPolled t) (k : Key) :
    (t.entry k).fallback = (s.entry k).fallback := by
  have hentry : ∀ {u v : State}, u.req = v.req → u.entry k = v.entry k := fun h => by
    rw [State.entry, h, State.entry]
  obtain h | h := h
  · rw [hentry h]
  · rw [hentry h, State.polled, entry_afterPoll]
    split_ifs <;> rfl

/-! ### LOOP completes (R172) -/

theorem BusFrame.withRxq {s t : State} (h : BusFrame s t) (q : List Byte) :
    BusFrame { s with rxq := q } { t with rxq := q } := by
  rw [BusFrame] at h
  rw [h]
  rfl

/-- Every waiting byte is consumed: the invariant and the providers' contract outlast each of them. -/
theorem drain_completes {bs : List Byte} {s : State} (hi : s.Inv) (hp : s.ProvidersInContract) :
    ∃ t, drain bs s = .next t ∧ BusFrame { s with rxq := [] } t := by
  induction bs generalizing s with
  | nil => exact ⟨_, rfl, rfl⟩
  | cons b bs ih =>
    have hi : State.Inv { s with rxq := bs } := hi.frame rfl
    obtain ⟨u, hu⟩ := consumeByte_completes hi hp b
    have hfallback := (consumeByte_req b _ u hu).fallback
    obtain ⟨t, ht, hframe⟩ := ih (consumeByte_inv hi b u hu) (hp.of_fallback hfallback)
    exact ⟨t, by rw [drain, hu, andThen_next, ht], ((consumeByte_frame hu).withRxq []).trans' hframe⟩

/-- Settles O45: the two cases of `connected`, the unfolding into CONSUMEs (`drain_eq_runAll_consume`), and
completion byte by byte (`drain_completes`). -/
theorem loopIsConsumeOfEveryWaitingByte : Obligations.LoopIsConsumeOfEveryWaitingByte := by
  refine fun s => ⟨exec_loop_disconnected, fun hc => ?_, fun hi hp hc => ?_⟩
  · rw [exec_loop_connected hc]
    exact drain_eq_runAll_consume s.rxq s s.answer
  · obtain ⟨t, ht, hframe⟩ := drain_completes (bs := s.rxq) hi hp
    refine ⟨t.reply .done, by rw [exec_loop_connected hc, ht, andThen_next], ?_⟩
    rw [BusFrame] at hframe
    rw [hframe]
    exact ⟨rfl, hc, rfl, rfl, rfl, rfl, rfl⟩

end Sys2Proof.Machine

/-! ## Exceptions (60_exceptions.md): what a received byte cannot touch, and which byte raises which error -/

namespace Sys2Proof.Machine

/-! ### The host's tables (R202) -/

theorem entry_of_req {s t : State} (h : t.req = s.req) (k : Key) : t.entry k = s.entry k := by
  rw [State.entry, h, State.entry]

/-- A poll leaves a queue, or takes the front of the one it asked (R147). -/
theorem queue_afterPoll (s : State) (a : Addr) (c : Byte) (k : Key) :
    ((afterPoll s a c).entry k).queue = (s.entry k).queue ∨
      (k = ⟨a, c⟩ ∧ ∃ p, (s.entry k).queue = p :: ((afterPoll s a c).entry k).queue) := by
  rw [entry_afterPoll]
  split_ifs with hk
  · cases hq : (s.entry k).queue with
    | nil => exact .inl rfl
    | cons p q => exact .inr ⟨hk.1, p, rfl⟩
  · exact .inl rfl

theorem State.ReqPolled.queue {s t : State} (h : s.ReqPolled t) (k : Key) :
    (t.entry k).queue = (s.entry k).queue ∨
      (k = ⟨s.frameAddr, s.frameCmd⟩ ∧ ∃ p, (s.entry k).queue = p :: (t.entry k).queue) := by
  obtain h | h := h
  · exact .inl (by rw [entry_of_req h])
  · rw [entry_of_req h]
    exact queue_afterPoll s s.frameAddr s.frameCmd k

/-- Settles O53: all but the request table is in the frame of a received byte (`consumeByte_frame`), and the request
table is left to one poll at most, by the frame in the buffer (`consumeByte_req`). -/
theorem busCannotTouchTheHostsTables : Obligations.BusCannotTouchTheHostsTables := by
  intro s t b hx
  obtain ⟨u, hu, ht⟩ := andThen_eq_next.mp hx
  cases ht
  have hreq : s.ReqPolled u := consumeByte_req b s u hu
  have hframe : BusFrame s u := consumeByte_frame hu
  rw [BusFrame] at hframe
  rw [hframe]
  exact ⟨rfl, rfl, rfl, rfl, rfl, rfl, rfl, ⟨s.frameAddr, s.frameCmd⟩,
    fun k => ⟨hreq.fallback k, hreq.queue k⟩⟩

/-! ### What was logged since -/

/-- The events of `s` after `old` log the error `e`, or none. -/
def State.Logged (old : List Event) (e : Option ErrorClass) (s : State) : Prop :=
  ∃ es, s.trace = old ++ es ∧ es.filter Event.isLog = e.toList.map .log

theorem State.Logged.refl (s : State) : s.Logged s.trace none := ⟨[], by simp, rfl⟩

/-- A delivery logs nothing (R118, R152). -/
theorem IsDelivery.log {s : State} {tr : List Byte} {es : List Event} (h : IsDelivery s tr es) :
    es.filter Event.isLog = [] := by
  have hl : (listenerEvents s tr).filter Event.isLog = [] := by
    obtain hl | ⟨_, _, _, _, hl⟩ := listenerEvents_cases s tr
    · rw [hl]
      rfl
    · rw [hl]
      rfl
  unfold IsDelivery at h
  split_ifs at h
  · obtain ⟨order, -, rfl⟩ := h
    have hb : (order.map fun e => Event.broadcast e tr).filter Event.isLog = [] := by
      simp [List.filter_map, Function.comp_def, Event.isLog]
    rw [List.filter_cons_of_neg Bool.false_ne_true, List.filter_append, hl, hb, List.nil_append]
  · rw [h]
    rfl

theorem waitStartRules_trace (b : Byte) (s : State) : (waitStartRules b s).trace = s.trace := by
  unfold waitStartRules
  split_ifs
  · rfl
  · rfl
  · rfl

/-- The WaitStart rules raise no error (R198). -/
theorem State.Logged.waitStartRules {s : State} {old : List Event} {e : Option ErrorClass}
    (h : s.Logged old e) (b : Byte) : (waitStartRules b s).Logged old e := by
  rw [State.Logged, waitStartRules_trace]
  exact h

section Logged

variable {s : State} {old : List Event} (h : s.Logged old none)

include h

/-- A flush logs what is emitted before the delivery (R118, R199). -/
theorem State.Logged.flushed {t : State} {pre : List Event} {tr : List Byte} {seed : Byte}
    {e : Option ErrorClass} (hf : Flushed s t pre tr seed)
    (hpre : pre.filter Event.isLog = e.toList.map .log) : t.Logged old e := by
  obtain ⟨es, ht, hes⟩ := h
  obtain ⟨-, fs, hfs, htr⟩ := hf
  refine ⟨es ++ (pre ++ fs), by simp only [htr, ht, List.append_assoc], ?_⟩
  rw [List.filter_append, List.filter_append, hes, hpre, hfs.log, List.append_nil]
  rfl

theorem State.Logged.raiseError (e : ErrorClass) : (raiseError e s).Logged old (some e) :=
  h.flushed (raiseError_flushed e s) rfl

theorem State.Logged.sendBytes (p : List Byte) : (sendBytes p s).Logged old none := by
  obtain ⟨es, ht, hes⟩ := h
  refine ⟨es ++ sendEvents s.cfg p, by rw [sendBytes_trace, ht, List.append_assoc], ?_⟩
  rw [List.filter_append, hes]
  rfl

theorem State.Logged.polled : s.polled.Logged old none := by
  rw [polled_frame]
  exact h

theorem pushByte_logged (b : Byte) : Yields (·.Logged old none) (pushByte b s) := by
  refine (pushByte_yields b s).mono ?_
  rintro _ ⟨-, rfl⟩
  exact h

/-! ### The rules that raise no error -/

theorem answerPoll_logged (p : List Byte) : Yields (·.Logged old none) (answerPoll p s) :=
  (pushBytes_yields (fun b _ hu => pushByte_logged hu b) p (h.sendBytes p)).andThen
    fun _ ht => yields_next.mpr ht

theorem ackAndComplete_logged : Yields (·.Logged old none) (ackAndComplete s) :=
  (pushByte_logged (h.sendBytes [s.cfg.ack]) s.cfg.ack).andThen
    fun t ht => yields_next.mpr (ht.flushed (complete_flushed 0 t) rfl)

/-- No rule of DISPATCH raises an error (R99 to R104). -/
theorem execDispatch_logged : Yields (·.Logged old none) (execDispatch s) := by
  unfold execDispatch
  cases s.dispatchClass with
  | pollAns p => exact answerPoll_logged h.polled p
  | pollAck => exact ackAndComplete_logged h.polled
  | dataAck => exact ackAndComplete_logged h
  | pollObs | dataObs => exact yields_next.mpr h
  | outOfContract => exact yields_refused _ _

end Logged

/-! ### Which error a rule raises (R95, R96, R120, R121) -/

/-- The error of what the appended byte makes of the frame (R95, R96). -/
def DataClass.error : DataClass → Option ErrorClass
  | .badLen => some .malformedFrame
  | .badSum => some .checksumMismatch
  | .append | .valid => none

/-- The error of a byte in the ack/nak handler (R120). -/
def ackError (c : Config) (b : Byte) : Option ErrorClass :=
  if b = c.ack ∨ b = c.nak then none
  else if b = c.masterStart then none
  else some .unexpectedAckByte

/-- The error that byte `b` raises in the case on `st` (R90). -/
def State.ruleError (s : State) (b : Byte) : Option ErrorClass :=
  match s.st with
  | .waitData => (s.append b).dataClass.error
  | .waitStartSlave => if b = s.cfg.slaveStart then none else ackError s.cfg b
  | .waitAck => ackError s.cfg b
  | .waitStart | .waitDataSlave => none

/-- The error that byte `b` raises in `s`, the overflow before everything (R198). -/
def State.byteError (s : State) (b : Byte) : Option ErrorClass :=
  if s.overflowing then some .bufferOverflow else s.ruleError b

theorem waitDataRules_logged (s : State) (b : Byte) :
    Yields (·.Logged s.trace (s.append b).dataClass.error) (waitDataRules b s) := by
  have h : (s.append b).Logged s.trace none := .refl s
  refine (pushByte_yields b s).andThen ?_
  rintro _ ⟨-, rfl⟩
  cases (s.append b).dataClass with
  | append => exact yields_next.mpr h
  | badLen | badSum => exact yields_next.mpr (h.raiseError _)
  | valid => exact execDispatch_logged h

theorem execAckh_logged (s : State) (b : Byte) :
    Yields (·.Logged s.trace (ackError s.cfg b)) (execAckh b s) := by
  have h := State.Logged.refl s
  refine (pushByte_yields b s).andThen ?_
  rintro _ ⟨-, rfl⟩
  have hf := classifyAck_append_flushed s b
  unfold ackError
  refine yields_next.mpr ?_
  split_ifs at hf ⊢
  · exact h.flushed hf rfl
  · exact h.flushed hf rfl
  · exact h.flushed hf rfl

theorem waitStartSlaveRules_logged (s : State) (b : Byte) :
    Yields (·.Logged s.trace (if b = s.cfg.slaveStart then none else ackError s.cfg b))
      (waitStartSlaveRules b s) := by
  unfold waitStartSlaveRules
  split_ifs
  · exact (pushByte_logged (.refl s) b).andThen fun _ ht => yields_next.mpr ht
  · exact execAckh_logged s b

theorem waitDataSlaveRules_logged (s : State) (b : Byte) :
    Yields (·.Logged s.trace none) (waitDataSlaveRules b s) := by
  refine (pushByte_logged (.refl s) b).andThen fun t ht => yields_next.mpr ?_
  split_ifs
  · exact ht
  · exact ht

theorem parserRules_logged (s : State) (b : Byte) :
    Yields (·.Logged s.trace (s.ruleError b)) (parserRules b s) := by
  unfold parserRules State.ruleError
  cases s.st with
  | waitStart => exact yields_next.mpr ((State.Logged.refl s).waitStartRules b)
  | waitData => exact waitDataRules_logged s b
  | waitStartSlave => exact waitStartSlaveRules_logged s b
  | waitDataSlave => exact waitDataSlaveRules_logged s b
  | waitAck => exact execAckh_logged s b

/-- One byte logs at most one error, and `byteError` says which (R198). -/
theorem consumeByte_logged (s : State) (b : Byte) :
    Yields (·.Logged s.trace (s.byteError b)) (consumeByte b s) := by
  unfold State.byteError
  split_ifs with ho
  · rw [consumeByte_of_full ho]
    exact yields_next.mpr (((State.Logged.refl s).raiseError _).waitStartRules b)
  · rw [consumeByte_of_room (Bool.eq_false_iff.mpr ho)]
    exact parserRules_logged s b

/-! ### The causes (R191) -/

/-- The cause R191 gives for each error. -/
def State.Causes (s : State) (b : Byte) : ErrorClass → Prop
  | .malformedFrame => s.st = .waitData ∧ s.cur = 4 ∧ maxData < b.toNat
  | .checksumMismatch =>
    s.st = .waitData ∧ 5 ≤ s.cur ∧ s.cur = 5 + s.frameLen ∧
      b ≠ csum s.cfg (s.bufSlice 1 (5 + s.frameLen))
  | .bufferOverflow => s.st ≠ .waitStart ∧ s.cur = s.cfg.bufCap
  | .unexpectedAckByte =>
    s.cur < s.cfg.bufCap ∧
      (s.st = .waitAck ∨ (s.st = .waitStartSlave ∧ b ≠ s.cfg.slaveStart)) ∧
      b ≠ s.cfg.ack ∧ b ≠ s.cfg.nak ∧ b ≠ s.cfg.masterStart

/-- Where a byte can stand in a master frame: it goes on, its length byte is impossible, or it is its last. -/
theorem State.InMasterFrame.place {s : State} (h : s.InMasterFrame) (b : Byte) :
    s.Continues b ∨ (s.cur = 4 ∧ maxData < b.toNat) ∨ s.cur = 5 + s.frameLen := by
  obtain ⟨-, -, -, hlen⟩ := h
  unfold State.Continues
  omega

theorem ackError_eq_some_iff {c : Config} {b : Byte} {e : ErrorClass} :
    ackError c b = some e ↔
      e = .unexpectedAckByte ∧ b ≠ c.ack ∧ b ≠ c.nak ∧ b ≠ c.masterStart := by
  unfold ackError
  split_ifs with hsent hmark
  · exact iff_of_false nofun fun ⟨_, hack, hnak, _⟩ => hsent.elim hack hnak
  · simp [hmark]
  · obtain ⟨hack, hnak⟩ := not_or.mp hsent
    simp [hack, hnak, hmark, eq_comm]

theorem causes_of_ruleError {s : State} (hi : s.Inv) (ho : s.overflowing = false) {b : Byte}
    {e : ErrorClass} (h : s.ruleError b = some e) : s.Causes b e := by
  unfold State.ruleError at h
  cases hst : s.st with
  | waitStart | waitDataSlave =>
    rw [hst] at h
    cases h
  | waitData =>
    simp only [hst] at h
    obtain hc | ⟨h4, hn⟩ | hend := State.InMasterFrame.place (hi.data hst) b
    · rw [hc.dataClass] at h
      cases h
    · rw [dataClass_append_badLen h4 hn] at h
      cases h
      exact ⟨hst, h4, hn⟩
    · rw [dataClass_append_last hend] at h
      split_ifs at h with hsum
      · cases h
      · cases h
        exact ⟨hst, by omega, hend, hsum⟩
  | waitStartSlave =>
    simp only [hst] at h
    split_ifs at h with hb
    obtain ⟨rfl, hclass⟩ := ackError_eq_some_iff.mp h
    exact ⟨cur_lt_bufCap ho (by simp [hst]), .inr ⟨hst, hb⟩, hclass⟩
  | waitAck =>
    simp only [hst] at h
    obtain ⟨rfl, hclass⟩ := ackError_eq_some_iff.mp h
    exact ⟨cur_lt_bufCap ho (by simp [hst]), .inl hst, hclass⟩

theorem overflowing_iff {s : State} (hi : s.Inv) :
    s.overflowing = true ↔ s.st ≠ .waitStart ∧ s.cur = s.cfg.bufCap := by
  have hcap := hi.curRange
  simp only [State.overflowing, Bool.and_eq_true, bne_iff_ne, decide_eq_true_eq]
  exact and_congr_right fun _ => ⟨fun h => le_antisymm hcap h, ge_of_eq⟩

/-- A master frame ends before the buffer is full (R6). -/
theorem overflowing_of_waitData {s : State} (hi : s.Inv) (hst : s.st = .waitData) :
    s.overflowing = false := by
  have hcap : 2 * maxFrame + 1 ≤ s.cfg.bufCap := hi.storeOk.sizes.1
  have hlt : s.cur < maxFrame := State.InMasterFrame.cur_lt (hi.data hst)
  exact overflowing_of_room (by omega)

theorem byteError_of_room {s : State} (ho : s.overflowing = false) (b : Byte) :
    s.byteError b = s.ruleError b := by rw [State.byteError, ho, if_neg Bool.false_ne_true]

theorem byteError_of_causes {s : State} (hi : s.Inv) {b : Byte} {e : ErrorClass}
    (h : s.Causes b e) : s.byteError b = some e := by
  cases e with
  | bufferOverflow => exact if_pos ((overflowing_iff hi).mpr h)
  | malformedFrame =>
    obtain ⟨hst, h4, hn⟩ := h
    rw [byteError_of_room (overflowing_of_waitData hi hst), State.ruleError, hst]
    exact congrArg DataClass.error (dataClass_append_badLen h4 hn)
  | checksumMismatch =>
    obtain ⟨hst, -, hend, hsum⟩ := h
    rw [byteError_of_room (overflowing_of_waitData hi hst), State.ruleError, hst]
    exact congrArg DataClass.error ((dataClass_append_last hend b).trans (if_neg hsum))
  | unexpectedAckByte =>
    obtain ⟨hroom, hst, hclass⟩ := h
    have he : ackError s.cfg b = some .unexpectedAckByte := ackError_eq_some_iff.mpr ⟨rfl, hclass⟩
    rw [byteError_of_room (overflowing_of_room hroom), State.ruleError]
    obtain hst | ⟨hst, hb⟩ := hst
    · rw [hst]
      exact he
    · rw [hst]
      exact (if_neg hb).trans he

/-- Under the invariant a byte raises exactly the error whose cause it meets. -/
theorem byteError_eq_some_iff {s : State} (hi : s.Inv) {b : Byte} {e : ErrorClass} :
    s.byteError b = some e ↔ s.Causes b e := by
  refine ⟨fun h => ?_, byteError_of_causes hi⟩
  unfold State.byteError at h
  split_ifs at h with ho
  · cases h
    exact (overflowing_iff hi).mp ho
  · exact causes_of_ruleError hi (Bool.eq_false_iff.mpr ho) h

/-- The one logged error is found among the events, and no other. -/
theorem log_mem_iff {es : List Event} {o : Option ErrorClass}
    (h : es.filter Event.isLog = o.toList.map .log) (e : ErrorClass) : .log e ∈ es ↔ o = some e := by
  have hmem : .log e ∈ es ↔ .log e ∈ es.filter Event.isLog := by simp [Event.isLog]
  rw [hmem, h]
  simp

/-- Settles O56: a byte logs what `byteError` says (`consumeByte_logged`), and that is the error whose cause it
meets (`byteError_eq_some_iff`). -/
theorem errorsAreRaisedExactlyWhereStated : Obligations.ErrorsAreRaisedExactlyWhereStated := by
  intro s t b hi hx
  obtain ⟨u, hu, ht⟩ := andThen_eq_next.mp hx
  cases ht
  obtain ⟨es, htr, hes⟩ := consumeByte_logged s b u hu
  have hlog (e : ErrorClass) : .log e ∈ es ↔ s.Causes b e :=
    (log_mem_iff hes e).trans (byteError_eq_some_iff hi)
  refine ⟨es, htr, ?_, hlog .malformedFrame, hlog .checksumMismatch, hlog .bufferOverflow,
    hlog .unexpectedAckByte⟩
  rw [hes, List.length_map]
  exact Option.length_toList_le

end Sys2Proof.Machine

/-! ## Operands outside their domain (40_checksum_codec.md, 43_transmit.md) -/

namespace Sys2Proof.Machine

theorem next_ne_refused (t : State) (r : Refusal) : (.next t : Result) ≠ .refused r := nofun

/-- An operation that takes at most `n` data bytes is refused exactly above that bound. -/
theorem boundedLength_eq_refused_iff {bs : List Byte} {n : Nat} {t : State} {r : Refusal} :
    (if bs.length ≤ n then .next t else .refused r : Result) = .refused r ↔ n < bs.length :=
  (next_ne_refused t r).ite_eq_right_iff.trans not_le

theorem exec_sendbytes_refused_iff {s : State} {bs : List Byte} :
    exec (.sendbytes bs) s = .refused .operandOutsideDomain ↔ bs = [] :=
  (next_ne_refused (sendBytes bs s) _).symm.ite_eq_left_iff

/-- Settles O26: the four operations that build a frame are guarded by the number of their data bytes
(`boundedLength_eq_refused_iff`, at 122 for MKMASTER and 255 for the others), SENDBYTES by a payload that is not
empty (`exec_sendbytes_refused_iff`). -/
theorem operandsOutsideTheirDomainAreRefused : Obligations.OperandsOutsideTheirDomainAreRefused :=
  fun _ _ _ _ => ⟨boundedLength_eq_refused_iff, boundedLength_eq_refused_iff, boundedLength_eq_refused_iff,
    boundedLength_eq_refused_iff, exec_sendbytes_refused_iff⟩

end Sys2Proof.Machine
